-- ==== Sys2Proof/Word.lean ====
section
/-! DEFINITION. The word types of the block (spec/00_scope.md R15, spec/30_encoding.md R70). All quantities are unsigned. -/

namespace Sys2Proof

/-- A byte: DATA, ERR, RSP_DATA, every EEPROM and USART datum (00_scope.md R15). -/
abbrev Byte := BitVec 8

/-- An EEPROM byte address, the 16-bit ADDR field (30_encoding.md R72). -/
abbrev Addr := BitVec 16

/-- A command word (30_encoding.md R70). -/
abbrev Word := BitVec 32

end Sys2Proof
end

