-- ==== Sys2Proof/Syntax.lean ====
section
/-! DEFINITION. The nineteen commands (spec/30_encoding.md R76). Operand widths are in the types (R72, R73). -/

namespace Sys2Proof

/-- One constructor per row of the opcode map (30_encoding.md R76). `t` is the token bit, `a` the EEPROM address,
`d` the byte operand (R74). -/
inductive Instr where
  | csEnter
  | csExit (t : Bool)
  | errRead
  | errSet (d : Byte)
  | errClear
  | eeIsReady
  | eeRead (a : Addr)
  | eeWrite (a : Addr) (d : Byte)
  | eeUpdate (a : Addr) (d : Byte)
  | usInit
  | usTxIsReady
  | usTxIsTransmitted
  | usRxIsReady
  | usTxByte (d : Byte)
  | usRxByte
  | usTxieOn
  | usTxieOff
  | usRxieOn
  | usRxieOff
  deriving DecidableEq, Repr

end Sys2Proof
end

