-- ==== Sys2Proof/Decode.lean ====
section
/-! DEFINITION. Decoding and encoding of command words (spec/30_encoding.md R70 to R78). Decoding is total and refuses an
illegal word by name (R77). -/

namespace Sys2Proof

/-- OPC = bits [31:24] (30_encoding.md R70). -/
def opcField (w : Word) : BitVec 8 := w.extractLsb' 24 8

/-- ADDR = bits [23:8] (30_encoding.md R70, R72). -/
def addrField (w : Word) : Addr := w.extractLsb' 8 16

/-- DATA = bits [7:0] (30_encoding.md R70, R73). -/
def dataField (w : Word) : Byte := w.extractLsb' 0 8

/-- The token, DATA[0] (30_encoding.md R73). -/
def tokenField (w : Word) : Bool := w.getLsbD 0

/-- The five formats (30_encoding.md R74). -/
inductive Format where
  | f0 | ft | fd | fa | fad
  deriving DecidableEq, Repr

/-- The mask of a format: the bits that are not operand bits (30_encoding.md R74). -/
def Format.mask : Format → Word
  | .f0 => 0xFFFFFFFF#32
  | .ft => 0xFFFFFFFE#32
  | .fd => 0xFFFFFF00#32
  | .fa => 0xFF0000FF#32
  | .fad => 0xFF000000#32

/-- Why a word is illegal (30_encoding.md R77). -/
inductive Illegal where
  /-- OPC is none of the nineteen values of the map. -/
  | reservedOpcode (opc : BitVec 8)
  /-- A bit that the format of the row marks 0 is 1. -/
  | reservedBit (opc : BitVec 8)
  deriving DecidableEq, Repr

/-- A row of the opcode map (30_encoding.md R76): `pattern` is its match column. -/
structure Row where
  mnemonic : String
  format : Format
  pattern : Word
  deriving DecidableEq, Repr

/-- The opcode map (30_encoding.md R76). -/
def opcodeMap : List Row :=
  [ ⟨"CS_ENTER", .f0, 0x01000000#32⟩, ⟨"CS_EXIT", .ft, 0x02000000#32⟩,
    ⟨"ERR_READ", .f0, 0x10000000#32⟩, ⟨"ERR_SET", .fd, 0x11000000#32⟩, ⟨"ERR_CLEAR", .f0, 0x12000000#32⟩,
    ⟨"EE_IS_READY", .f0, 0x20000000#32⟩, ⟨"EE_READ", .fa, 0x21000000#32⟩,
    ⟨"EE_WRITE", .fad, 0x22000000#32⟩, ⟨"EE_UPDATE", .fad, 0x23000000#32⟩ ] ++
  [ ⟨"US_INIT", .f0, 0x30000000#32⟩, ⟨"US_TX_IS_READY", .f0, 0x31000000#32⟩,
    ⟨"US_TX_IS_TRANSMITTED", .f0, 0x32000000#32⟩, ⟨"US_RX_IS_READY", .f0, 0x33000000#32⟩,
    ⟨"US_TX_BYTE", .fd, 0x34000000#32⟩, ⟨"US_RX_BYTE", .f0, 0x35000000#32⟩,
    ⟨"US_TXIE_ON", .f0, 0x36000000#32⟩, ⟨"US_TXIE_OFF", .f0, 0x37000000#32⟩,
    ⟨"US_RXIE_ON", .f0, 0x38000000#32⟩, ⟨"US_RXIE_OFF", .f0, 0x39000000#32⟩ ]

/-- A word selects a row iff `(w & mask) == match` (30_encoding.md R76). -/
def Row.selects (r : Row) (w : Word) : Bool := w &&& r.format.mask == r.pattern

/-- The mnemonic of a command (30_encoding.md R76, R82). -/
def Instr.mnemonic : Instr → String
  | .csEnter => "CS_ENTER"
  | .csExit _ => "CS_EXIT"
  | .errRead => "ERR_READ"
  | .errSet _ => "ERR_SET"
  | .errClear => "ERR_CLEAR"
  | .eeIsReady => "EE_IS_READY"
  | .eeRead _ => "EE_READ"
  | .eeWrite _ _ => "EE_WRITE"
  | .eeUpdate _ _ => "EE_UPDATE"
  | .usInit => "US_INIT"
  | .usTxIsReady => "US_TX_IS_READY"
  | .usTxIsTransmitted => "US_TX_IS_TRANSMITTED"
  | .usRxIsReady => "US_RX_IS_READY"
  | .usTxByte _ => "US_TX_BYTE"
  | .usRxByte => "US_RX_BYTE"
  | .usTxieOn => "US_TXIE_ON"
  | .usTxieOff => "US_TXIE_OFF"
  | .usRxieOn => "US_RXIE_ON"
  | .usRxieOff => "US_RXIE_OFF"

/-- Answer `i` for `w` unless a reserved bit of the format is 1 (30_encoding.md R74, R77). -/
def inFormat (f : Format) (pattern w : Word) (i : Instr) : Except Illegal Instr :=
  if w &&& f.mask = pattern then .ok i else .error (.reservedBit (opcField w))

/-- The command a word decodes to, or why it is illegal (30_encoding.md R71, R75, R76, R77). -/
def decode (w : Word) : Except Illegal Instr :=
  match opcField w with
  | 0x01#8 => inFormat .f0 0x01000000#32 w .csEnter
  | 0x02#8 => inFormat .ft 0x02000000#32 w (.csExit (tokenField w))
  | 0x10#8 => inFormat .f0 0x10000000#32 w .errRead
  | 0x11#8 => inFormat .fd 0x11000000#32 w (.errSet (dataField w))
  | 0x12#8 => inFormat .f0 0x12000000#32 w .errClear
  | 0x20#8 => inFormat .f0 0x20000000#32 w .eeIsReady
  | 0x21#8 => inFormat .fa 0x21000000#32 w (.eeRead (addrField w))
  | 0x22#8 => inFormat .fad 0x22000000#32 w (.eeWrite (addrField w) (dataField w))
  | 0x23#8 => inFormat .fad 0x23000000#32 w (.eeUpdate (addrField w) (dataField w))
  | 0x30#8 => inFormat .f0 0x30000000#32 w .usInit
  | 0x31#8 => inFormat .f0 0x31000000#32 w .usTxIsReady
  | 0x32#8 => inFormat .f0 0x32000000#32 w .usTxIsTransmitted
  | 0x33#8 => inFormat .f0 0x33000000#32 w .usRxIsReady
  | 0x34#8 => inFormat .fd 0x34000000#32 w (.usTxByte (dataField w))
  | 0x35#8 => inFormat .f0 0x35000000#32 w .usRxByte
  | 0x36#8 => inFormat .f0 0x36000000#32 w .usTxieOn
  | 0x37#8 => inFormat .f0 0x37000000#32 w .usTxieOff
  | 0x38#8 => inFormat .f0 0x38000000#32 w .usRxieOn
  | 0x39#8 => inFormat .f0 0x39000000#32 w .usRxieOff
  | opc => .error (.reservedOpcode opc)

/-- A word of format FT (30_encoding.md R74, R122). -/
def wordT (pattern : Word) (t : Bool) : Word := pattern ||| (if t then 1#32 else 0#32)

/-- A word of format FD (30_encoding.md R74, R101). -/
def wordD (pattern : Word) (d : Byte) : Word := pattern ||| d.setWidth 32

/-- A word of format FA (30_encoding.md R74, R142). -/
def wordA (pattern : Word) (a : Addr) : Word := pattern ||| (a.setWidth 32 <<< 8)

/-- A word of format FAD (30_encoding.md R74, R145). -/
def wordAD (pattern : Word) (a : Addr) (d : Byte) : Word := pattern ||| (a.setWidth 32 <<< 8) ||| d.setWidth 32

/-- The word of a command, written from the encodings of the command rules. -/
def encode : Instr → Word
  | .csEnter => 0x01000000#32
  | .csExit t => wordT 0x02000000#32 t
  | .errRead => 0x10000000#32
  | .errSet d => wordD 0x11000000#32 d
  | .errClear => 0x12000000#32
  | .eeIsReady => 0x20000000#32
  | .eeRead a => wordA 0x21000000#32 a
  | .eeWrite a d => wordAD 0x22000000#32 a d
  | .eeUpdate a d => wordAD 0x23000000#32 a d
  | .usInit => 0x30000000#32
  | .usTxIsReady => 0x31000000#32
  | .usTxIsTransmitted => 0x32000000#32
  | .usRxIsReady => 0x33000000#32
  | .usTxByte d => wordD 0x34000000#32 d
  | .usRxByte => 0x35000000#32
  | .usTxieOn => 0x36000000#32
  | .usTxieOff => 0x37000000#32
  | .usRxieOn => 0x38000000#32
  | .usRxieOff => 0x39000000#32

/-- The command word given by the low `nbits` bits of `w`, every higher bit 0; the command port takes one parallel
32-bit value, so no byte order enters (20_memory.md R53). -/
def tableWord (nbits w : Nat) : Word := BitVec.ofNat 32 (w % 2 ^ nbits)

/-- What the decoder reads from an instruction whose bits are `w`. -/
def decodeTableWord (nbits w : Nat) : Option Instr :=
  match decode (tableWord nbits w) with
  | .ok i => some i
  | .error _ => none

end Sys2Proof
end

