-- ==== Sys2Proof/Config.lean ====
section
/-! DEFINITION. The implementation parameters (spec/00_scope.md R6 to R14) and the free values of the model. -/

namespace Sys2Proof

/-- The parameters that are fixed for a run and that no step writes (00_scope.md R7 to R14, 10_state.md R39).
A structure, carried by the state, so that a claim can quantify over them (R6; log entry 8). -/
structure Config where
  /-- SIZE, the number of EEPROM bytes (R7). -/
  size : Nat
  /-- CODE_NONE (R8). -/
  codeNone : Byte
  /-- CODE_EE_BAD_ADDR (R8). -/
  codeEeBadAddr : Byte
  /-- CODE_US_PARITY (R9). -/
  codeUsParity : Byte
  /-- CODE_US_OVERRUN (R9). -/
  codeUsOverrun : Byte
  /-- CODE_US_FRAME (R9). -/
  codeUsFrame : Byte
  /-- EE_SENTINEL (R10). -/
  eeSentinel : Byte
  /-- CFG_TX_EN (R11). -/
  txEn : Bool
  /-- CFG_RX_EN (R11). -/
  rxEn : Bool
  /-- CFG_CRLF (R11). -/
  crlf : Bool
  /-- CHAR_LF (R12). -/
  charLf : Byte
  /-- CHAR_CR (R12). -/
  charCr : Byte
  /-- BAUD_DIV (R13). -/
  baudDiv : BitVec 16
  /-- RXQ_DEPTH (R14). -/
  rxqDepth : Nat
  deriving DecidableEq, Repr

/-- The OPEN parameter CFG_TX_EN (R11, log entry 8): the spec gives no default, so it is a free value. -/
opaque Config.openTxEn : Bool

/-- The OPEN parameter CFG_RX_EN (R11, log entry 8): a free value. -/
opaque Config.openRxEn : Bool

/-- The OPEN parameter CFG_CRLF (R11, log entry 8): a free value. -/
opaque Config.openCrlf : Bool

/-- The OPEN parameter BAUD_DIV (R13, log entry 8): a free value. -/
opaque Config.openBaudDiv : BitVec 16

/-- One less than the OPEN parameter RXQ_DEPTH, which is at least 1 (R14, log entry 8): a free value. -/
opaque Config.openRxqExtra : Nat

/-- The byte an EEPROM address holds at first power-up: any value per byte (10_state.md R28, D36; log entry 3).
A free value: nothing in Lean can evaluate it. -/
opaque Config.eePowerUp : Nat → Byte

/-- The spec's defaults of R7 to R10 and R12, with the OPEN parameters at their free values. -/
def Config.default : Config where
  size := 1024
  codeNone := 0x00
  codeEeBadAddr := 0x10
  codeUsParity := 0x20
  codeUsOverrun := 0x21
  codeUsFrame := 0x22
  eeSentinel := 0xFF
  txEn := Config.openTxEn
  rxEn := Config.openRxEn
  crlf := Config.openCrlf
  charLf := 0x0A
  charCr := 0x0D
  baudDiv := Config.openBaudDiv
  rxqDepth := Config.openRxqExtra + 1

end Sys2Proof
end

