-- ==== Sys2Proof/Machine/State.lean ====
section
/-! DEFINITION. The state of the block (spec/10_state.md), the events of the other agents with the values they draw, the
fault and refusal reasons, and the state right after a cold reset (spec/10_state.md section 7). -/

namespace Sys2Proof.Machine

/-- The values of PH (10_state.md R26). -/
inductive Phase where
  | idle
  | gValidate | gPoll | gEnter | gRecheck | gAccess | gExit
  | aEnter | aAccess | aExit
  | tStart | tPoll | tWrite
  | rPoll | rInspect | rRead
  deriving DecidableEq, Repr

/-- FMT, the frame format (10_state.md R34). -/
inductive FrameFormat where
  | f8n1 | other
  deriving DecidableEq, Repr

/-- An entry of RX_Q: a received byte and its parity, overrun and frame error bits (10_state.md R36). -/
structure RxEntry where
  data : Byte
  upe : Bool
  dor : Bool
  fe : Bool
  deriving DecidableEq, Repr

/-- EE_MEM: (address, byte) pairs, addresses strictly rising (10_state.md R28; log entry 3). -/
abbrev Memory := List Host.Cell

/-- What one interrupt-handler execution does: the draws of 60_exceptions.md R214. `none` and `false` are the changes
the handler does not make (log entry 14). -/
structure Interference where
  /-- The mask OR-ed into ERR. -/
  errMask : Byte
  /-- The handler's own EEPROM write, made only if EE_READY at the start of the step. -/
  eeWrite : Option (Addr × Byte)
  /-- The handler starts self-programming. -/
  startSpm : Bool
  /-- The value a handler's own access leaves in EEAR. -/
  eear : Option Addr
  /-- The value a handler's own access leaves in EEDR. -/
  eedr : Option Byte
  /-- The byte the handler writes to the transmit data register. -/
  transmit : Option Byte
  /-- The handler consumes the head entry of RX_Q, if any. -/
  consume : Bool
  txie : Option Bool
  rxie : Option Bool
  txen : Option Bool
  rxen : Option Bool
  fmt : Option FrameFormat
  baud : Option (BitVec 16)
  configured : Option Bool
  /-- The handler removes the cause of EXT_IRQ. -/
  dropExt : Bool
  deriving DecidableEq, Repr

/-- The values a reset leaves to a draw (10_state.md section 7, 70_reset_and_hazards.md R234, R236; log entry 2). -/
structure ResetDraw where
  cmd : Word
  sav : Bool
  tmp : Byte
  cur : Byte
  nxt : Option Byte
  eear : Addr
  eedr : Byte
  eePendAddr : Addr
  eePendData : Byte
  fmt : FrameFormat
  baud : BitVec 16
  txdr : Byte
  shiftByte : Byte
  extIrq : Bool
  /-- The byte left in the cell of an EEPROM write that the reset interrupts (R236). -/
  cell : Byte
  deriving DecidableEq, Repr

/-- Which agent steps, with what it draws (10_state.md R40; log entry 4). -/
inductive Event where
  /-- HOST when PH = IDLE, SEQ otherwise (R41). -/
  | main
  /-- IRQ (60_exceptions.md R214). -/
  | irq (e : Interference)
  /-- EEP, the EEPROM completion (42_eeprom.md R150), with the byte of EE_MEM that it changes, if any, where the pending
  address is outside the store (log entry 11). -/
  | eep (stray : Option (Nat × Byte))
  /-- UTX, the hand-over to the shift register (43_usart.md R190). -/
  | txHandOver
  /-- UTX, the end of a byte (43_usart.md R191). -/
  | txComplete
  /-- URX, the arrival of byte `x` with its parity, overrun and frame bits (43_usart.md R192). -/
  | rxArrive (x : Byte) (p o f : Bool)
  /-- ENV sets EXT_IRQ (10_state.md R37, R42). -/
  | setExtIrq (b : Bool)
  /-- ENV raises SPM_BUSY (10_state.md R42). -/
  | spmStart
  /-- ENV drops SPM_BUSY (10_state.md R42). -/
  | spmEnd
  /-- COLD_RST (70_reset_and_hazards.md R230). -/
  | coldReset (d : ResetDraw)
  /-- WARM_RST (70_reset_and_hazards.md R230). -/
  | warmReset (d : ResetDraw)
  /-- MODEL's own: HOST, outside the block, settles on the next word of its program (log entry 6). Nothing of the block
  changes; the word is presented at a turn of the main line. -/
  | hostWord (w : Word)
  deriving DecidableEq, Repr, Inhabited

end Sys2Proof.Machine

/-- The order in which the agents step, and what each of them draws, where nothing else fixes it: any interleaving
(10_state.md R40; log entry 4). A free value: nothing in Lean can evaluate it, so the turns it names may follow any order,
repeating or not. -/
opaque Sys2Proof.Config.eventAt : Nat → Sys2Proof.Machine.Event

namespace Sys2Proof.Machine

/-- The model faults: exactly the reasons of 60_exceptions.md R210. A micro-step that raises one answers it; the agent that
ran the micro-step records it in FAULTS and stops SEQ (log entry 9). All safe for claims that take 'FAULTS is empty' as a
premise, as R210 asks: a run whose FAULTS is not empty has no final state (R38, R211). -/
inductive Fault where
  /-- TX_COLLISION, raised by T_WRITE of US_TX_BYTE when UDRE = 0 (43_usart.md R178). Safe. -/
  | txCollision
  /-- RX_EMPTY, raised by R_INSPECT and R_READ of US_RX_BYTE on an empty queue (43_usart.md R181, R182). Safe. -/
  | rxEmpty
  /-- EE_COMMIT_WHILE_BUSY, raised by `commit` when the EEPROM is busy (42_eeprom.md R152). Safe, and unreachable. -/
  | eeCommitWhileBusy
  deriving DecidableEq, Repr

/-- Why the model answers nothing. All safe. -/
inductive Refusal where
  /-- An instruction without a meaning. Raised by `exec` only; no arm does so now. Safe. -/
  | notModelled (mnemonic : String)
  /-- PH holds a phase that the command in CMD does not have. Raised by SEQ and by the meanings of the commands of
  several phases; no run from reset reaches such a state (log entry 10). Safe. -/
  | foreignPhase
  /-- PH is not IDLE while CMD is no command. Raised by SEQ; no run from reset reaches it (log entry 10). Safe. -/
  | noCommand
  /-- The EEPROM controller is to read at an address outside [0, SIZE), where no byte exists. Raised by a G_ACCESS read;
  no run from reset reaches it, since G_VALIDATE rejects such an address (log entry 11). Safe. -/
  | eeAddressAbsent
  deriving DecidableEq, Repr

/-- The state: every piece of 10_state.md, the configuration of the run, and the MODEL's own fields that say what the
outside does next. -/
structure State where
  /-- The parameters; no step writes them (R39; log entry 8). -/
  cfg : Config
  /-- IE (R21). -/
  ie : Bool
  /-- ERR (R22). -/
  err : Byte
  /-- PH (R24, R26). -/
  ph : Phase
  /-- CMD (R24). -/
  cmd : Word
  /-- SAV (R24). -/
  sav : Bool
  /-- TMP (R24). -/
  tmp : Byte
  /-- CUR (R24). -/
  cur : Byte
  /-- NXT (R24). -/
  nxt : Option Byte
  /-- RSP_VALID (R25). -/
  rspValid : Bool
  /-- RSP_ILL (R25). -/
  rspIll : Bool
  /-- RSP_DATA (R25). -/
  rspData : Byte
  /-- EE_MEM (R28). -/
  eeMem : Memory
  /-- EEAR (R29). -/
  eear : Addr
  /-- EEDR (R29). -/
  eedr : Byte
  /-- The enable-latch of the EEPROM controller (42_eeprom.md R144, R151; log entry 13). -/
  eeLatch : Bool
  /-- EE_BUSY (R30). -/
  eeBusy : Bool
  /-- The address of EE_PEND (R30). -/
  eePendAddr : Addr
  /-- The datum of EE_PEND (R30). -/
  eePendData : Byte
  /-- SPM_BUSY (R31). -/
  spmBusy : Bool
  /-- EE_WR_COUNT (R33). -/
  eeWrCount : Nat
  /-- CONFIGURED (R34). -/
  configured : Bool
  /-- TXEN (R34). -/
  txen : Bool
  /-- RXEN (R34). -/
  rxen : Bool
  /-- FMT (R34). -/
  fmt : FrameFormat
  /-- BAUD (R34). -/
  baud : BitVec 16
  /-- TXIE (R34). -/
  txie : Bool
  /-- RXIE (R34). -/
  rxie : Bool
  /-- UDRE (R35). -/
  udre : Bool
  /-- TXDR (R35). -/
  txdr : Byte
  /-- SHIFT_BUSY (R35). -/
  shiftBusy : Bool
  /-- SHIFT_BYTE (R35). -/
  shiftByte : Byte
  /-- TXC (R35). -/
  txc : Bool
  /-- WIRE_TX, oldest byte first (R35). -/
  wireTx : List Byte
  /-- RX_Q, head first (R36). -/
  rxQ : List RxEntry
  /-- EXT_IRQ (R37). -/
  extIrq : Bool
  /-- FAULTS, a set: no reason is listed twice (R38; log entry 9). -/
  faults : List Fault
  /-- A fault was raised and no reset has occurred since: SEQ has no further step (60_exceptions.md R210; log entry 9). -/
  seqStopped : Bool
  /-- MODEL's own: the command words that HOST has settled on and not presented yet, in its program order; the event
  `hostWord` adds one (log entry 6). -/
  port : List Word
  /-- MODEL's own: the agents that step next, with their draws (log entry 4). -/
  sched : List Event
  /-- MODEL's own: the agents that step, over and over, once `sched` has run out (log entry 4). -/
  again : List Event
  /-- MODEL's own: how many turns were taken from the free order `Config.eventAt`, which goes on where neither list has an
  event (log entry 4). -/
  freeTurns : Nat
  deriving DecidableEq, Repr

/-- The outcome of a micro-step. -/
abbrev Result := Host.Outcome State Fault Refusal

/-- The block right after a cold reset (10_state.md section 7), nothing placed on its port. Where the spec says 'any
value' the value is named in log entry 1. -/
def State.reset : State where
  cfg := Config.default
  ie := false
  err := Config.default.codeNone
  ph := .idle
  cmd := 0#32
  sav := false
  tmp := 0#8
  cur := 0#8
  nxt := none
  rspValid := false
  rspIll := false
  rspData := 0#8
  eeMem := []
  eear := 0#16
  eedr := 0#8
  eeLatch := false
  eeBusy := false
  eePendAddr := 0#16
  eePendData := 0#8
  spmBusy := false
  eeWrCount := 0
  configured := false
  txen := false
  rxen := false
  fmt := .other
  baud := 0#16
  txie := false
  rxie := false
  udre := true
  txdr := 0#8
  shiftBusy := false
  shiftByte := 0#8
  txc := false
  wireTx := []
  rxQ := []
  extIrq := false
  faults := []
  seqStopped := false
  port := []
  sched := []
  again := []
  freeTurns := 0

end Sys2Proof.Machine
end

