-- ==== Sys2Proof/Machine/Ops.lean ====
section
/-! DEFINITION. The named operations over registers and memory: `respond`, `PH <- P`, the OR into ERR, MemRead and
MemWrite (spec/00_scope.md R16), the EEPROM controller's latch and commit (spec/42_eeprom.md R151, R152), raising a model
fault (spec/60_exceptions.md R210) and an interrupt's interference (R214). The block has no exceptions (R200): those two
are all that takes the place of exception entry and return. -/

namespace Sys2Proof.Machine

/-- `PH <- P` (00_scope.md R16). -/
def State.toPhase (s : State) (p : Phase) : State := { s with ph := p }

/-- `respond(v)` (00_scope.md R16): `RSP_VALID <- 1; RSP_ILL <- 0; RSP_DATA <- v; PH <- IDLE`. -/
def State.respond (s : State) (v : Byte) : State :=
  { s with rspValid := true, rspIll := false, rspData := v, ph := .idle }

/-- The response to an illegal word (30_encoding.md R79, R80). -/
def State.respondIllegal (s : State) : State :=
  { s with rspValid := true, rspIll := true, rspData := 0x00 }

/-- The port after a word was taken off it (log entry 6). -/
def State.withPort (s : State) (rest : List Word) : State := { s with port := rest }

/-- HOST's acceptance of a legal word (30_encoding.md R79): `RSP_VALID <- 0; RSP_ILL <- 0; CMD <- w`. -/
def State.accept (s : State) (w : Word) : State := { s with rspValid := false, rspIll := false, cmd := w }

/-- `ERR <- ERR | m`, one indivisible step (20_memory.md R55, 10_state.md R23). -/
def State.orErr (s : State) (m : Byte) : State := { s with err := s.err ||| m }

/-- `raise Fault(reason)` (00_scope.md R16, 60_exceptions.md R210): the micro-step ends here, and the writes after it are not
made. -/
def raiseFault (r : Fault) : Result := .fault r

/-- A set of reasons with one more in it. -/
def addFault (r : Fault) (l : List Fault) : List Fault := if r ∈ l then l else r :: l

/-- What raising a fault leaves (60_exceptions.md R210): the reason is added to FAULTS, PH stays, and SEQ has no further step
until a reset (log entry 9). -/
def State.recordFault (s : State) (r : Fault) : State :=
  { s with faults := addFault r s.faults, seqStopped := true }

/-- The second of two parts of one micro-step, run where the first answers a next state. -/
def andThen (o : Result) (f : State → Result) : Result :=
  match o with
  | .next s => f s
  | .fault r => .fault r
  | .refused r => .refused r

/-- What a listed address holds; `none` for an address that nothing has written. -/
def Memory.get (m : Memory) (n : Nat) : Option Byte :=
  match m with
  | [] => none
  | (k, v) :: rest => if k = n then some v else Memory.get rest n

/-- Store `v` at `n`, keeping the addresses strictly rising. -/
def Memory.set (m : Memory) (n : Nat) (v : Byte) : Memory :=
  match m with
  | [] => [(n, v)]
  | (k, w) :: rest =>
    if n < k then (n, v) :: (k, w) :: rest
    else if n = k then (n, v) :: rest
    else (k, w) :: Memory.set rest n v

/-- Every listed address is above `lo`, and they rise strictly. -/
def Memory.risesFrom (lo : Nat) (m : Memory) : Bool :=
  match m with
  | [] => true
  | (k, _) :: rest => decide (lo < k) && Memory.risesFrom k rest

/-- The canonical form: addresses strictly rising. An unlisted address holds no written byte, so no entry equals what an
unlisted address reads as (log entry 3). -/
def Memory.wf (m : Memory) : Bool :=
  match m with
  | [] => true
  | (k, _) :: rest => Memory.risesFrom k rest

/-- Every listed address lies in [0, size) (20_memory.md R50). -/
def Memory.within (m : Memory) (size : Nat) : Bool := m.all fun c => decide (c.1 < size)

/-- What an unlisted address reads as: the free byte it held at first power-up (10_state.md R28, D36; log entry 3). -/
def unlistedByte (n : Nat) : Byte := Config.eePowerUp n

/-- `EE_MEM[n]`, which is `MemRead(n, 1)` (00_scope.md R16). -/
def State.eeByte (s : State) (n : Nat) : Byte := (s.eeMem.get n).getD (unlistedByte n)

/-- `EEAR <- a`, `EEDR <- d` at the start of a G_ACCESS micro-step (42_eeprom.md R145). The latch lasts only to the end of
the micro-step that armed it, so a new one begins with it disarmed (R151; log entry 13). -/
def State.programEe (s : State) (a : Addr) (d : Byte) : State :=
  { s with eear := a, eedr := d, eeLatch := false }

/-- The controller's read of G_ACCESS (42_eeprom.md R142, R146): `EEAR <- a; EEDR <- MemRead(a, 1); TMP <- EEDR`. There is
no byte outside [0, SIZE) (20_memory.md R50, R52; log entry 11). -/
def State.readEe (s : State) (a : Addr) : Result :=
  if a.toNat < s.cfg.size then
    .next { s.programEe a (s.eeByte a.toNat) with tmp := s.eeByte a.toNat }
  else .refused .eeAddressAbsent

/-- `latch()` (42_eeprom.md R144, R151). -/
def State.latch (s : State) : State := { s with eeLatch := true }

/-- `commit()` (42_eeprom.md R152): ignored unless the latch is armed; a fault if the EEPROM is busy. -/
def State.commit (s : State) : Result :=
  if s.eeLatch then
    if s.eeBusy || s.spmBusy then raiseFault .eeCommitWhileBusy
    else
      .next { s with eePendAddr := s.eear, eePendData := s.eedr, eeBusy := true,
                     eeWrCount := s.eeWrCount + 1, eeLatch := false }
  else .next s

/-- `IRQ` (60_exceptions.md R214): the part of an interference that writes the EEPROM's registers. The handler's own write
happens only if EE_READY at the start of the step. -/
def interfereEeprom (e : Interference) (s : State) : State :=
  let t : State :=
    match e.eeWrite with
    | some (a, d) =>
      if !s.eeBusy && !s.spmBusy then
        { s with eear := a, eedr := d, eePendAddr := a, eePendData := d, eeBusy := true,
                 eeWrCount := s.eeWrCount + 1 }
      else s
    | none => s
  { t with spmBusy := t.spmBusy || e.startSpm, eear := e.eear.getD t.eear, eedr := e.eedr.getD t.eedr }

/-- `IRQ` (60_exceptions.md R214): the part of an interference that writes the USART's registers. A handler may write the
data register even if UDRE = 0. -/
def interfereUsart (e : Interference) (s : State) : State :=
  { s with
    txdr := e.transmit.getD s.txdr
    udre := s.udre && e.transmit.isNone
    txc := s.txc && e.transmit.isNone
    rxQ := if e.consume then s.rxQ.tail else s.rxQ
    txie := e.txie.getD s.txie
    rxie := e.rxie.getD s.rxie
    txen := e.txen.getD s.txen
    rxen := e.rxen.getD s.rxen
    fmt := e.fmt.getD s.fmt
    baud := e.baud.getD s.baud
    configured := e.configured.getD s.configured }

/-- One interrupt-handler execution, entry to return (60_exceptions.md R214, R215): it ORs into ERR and touches the
peripherals, and leaves IE, the sequencer, the response and EE_MEM as they were. -/
def interfere (e : Interference) (s : State) : State :=
  let t := interfereUsart e (interfereEeprom e (s.orErr e.errMask))
  { t with extIrq := t.extIrq && !e.dropExt }

end Sys2Proof.Machine
end

