-- ==== Sys2Proof/Machine/Operands.lean ====
section
/-! DEFINITION. Operand forms and result bytes. The operands themselves are fields of the word (spec/30_encoding.md R75),
read by the decoder; here are the range check of an address and the bytes that carry a bit. -/

namespace Sys2Proof.Machine

/-- An EEPROM address is valid iff ADDR < SIZE, compared as integers (20_memory.md R51, 00_scope.md R15). -/
def State.validAddr (s : State) (a : Addr) : Bool := decide (a.toNat < s.cfg.size)

/-- The result byte of a bit: 0x01 for true, 0x00 for false (30_encoding.md R76), and `zext_8` of the token
(41_synchronizer.md R120). -/
def boolByte (b : Bool) : Byte := if b then 0x01 else 0x00

/-- The host's use of a result byte as the operand of CS_EXIT: DATA[0] (30_encoding.md R73, 41_synchronizer.md R121). -/
def tokenOf (v : Byte) : Bool := v.getLsbD 0

end Sys2Proof.Machine
end

