-- ==== Sys2Proof/Machine/Flags.lean ====
section
/-! DEFINITION. The predicates over status bits and the error codes OR-ed into ERR. -/

namespace Sys2Proof.Machine

/-- EE_READY (10_state.md R32). -/
def State.eeReady (s : State) : Bool := !s.eeBusy && !s.spmBusy

/-- RXC: the receive queue is not empty (10_state.md R36). -/
def State.rxc (s : State) : Bool := !s.rxQ.isEmpty

/-- IRQ_REQ (10_state.md R37, 60_exceptions.md R213). -/
def State.irqReq (s : State) : Bool := (s.txie && s.udre) || (s.rxie && s.rxc) || s.extIrq

/-- The IRQ agent may step (60_exceptions.md R214). -/
def State.irqEnabled (s : State) : Bool := s.ie && s.irqReq

/-- A code if its condition holds, else nothing to OR (43_usart.md R181). -/
def codeIf (b : Bool) (code : Byte) : Byte := if b then code else 0x00

/-- The union of the codes of a received entry (43_usart.md R181, 40_error_register.md R104). -/
def rxCodes (c : Config) (h : RxEntry) : Byte :=
  codeIf h.upe c.codeUsParity ||| codeIf h.dor c.codeUsOverrun ||| codeIf h.fe c.codeUsFrame

/-- A received entry with its three error bits cleared (43_usart.md R171). -/
def RxEntry.clearErrors (e : RxEntry) : RxEntry := { e with upe := false, dor := false, fe := false }

/-- `RX_Q[last].dor <- 1` (43_usart.md R192). -/
def markOverrun : List RxEntry → List RxEntry
  | [] => []
  | [e] => [{ e with dor := true }]
  | e :: f :: rest => e :: markOverrun (f :: rest)

end Sys2Proof.Machine
end

