-- ==== Sys2Proof/Machine/Synchronizer.lean ====
section
/-! DEFINITION. The interrupt-masking synchronizer (spec/41_synchronizer.md): CS_ENTER and CS_EXIT, the phases of a guarded
access (R126 to R131) and of an atomic section (R135). -/

namespace Sys2Proof.Machine

/-- CS_ENTER (R120): the token is the prior IE. -/
def execCsEnter (s : State) : Result := .next ({ s with ie := false }.respond (boolByte s.ie))

/-- CS_EXIT t (R122): IE takes whatever token it is given (R123). -/
def execCsExit (t : Bool) (s : State) : Result := .next ({ s with ie := t }.respond 0x00)

/-- Entry into a critical section: `SAV <- IE; IE <- 0` (R128, R135). -/
def State.enterSection (s : State) : State := { s with sav := s.ie, ie := false }

/-- Exit from a critical section: `IE <- SAV` (R129, R130, R135). -/
def State.exitSection (s : State) : State := { s with ie := s.sav }

/-- G_VALIDATE (R131, 42_eeprom.md R141): an invalid address is reported in ERR and answered with `sentinel`. -/
def gValidate (a : Addr) (sentinel : Byte) (s : State) : State :=
  if s.validAddr a then s.toPhase .gPoll else (s.orErr s.cfg.codeEeBadAddr).respond sentinel

/-- G_POLL with readiness predicate EE_READY (R127): spins outside the critical section. -/
def gPoll (s : State) : State := if s.eeReady then s.toPhase .gEnter else s.toPhase .gPoll

/-- G_ENTER (R128). -/
def gEnter (s : State) : State := s.enterSection.toPhase .gRecheck

/-- G_RECHECK (R129): a failed re-check leaves the critical section and polls again. -/
def gRecheck (s : State) : State :=
  if s.eeReady then s.toPhase .gAccess else s.exitSection.toPhase .gPoll

/-- G_EXIT (R130), with the result the command rule says. -/
def gExit (result : Byte) (s : State) : State := s.exitSection.respond result

/-- The micro-step of a guarded access at phase PH (R126). At IDLE it is the first one, which the issue step runs
(30_encoding.md R79). `access` is the command's G_ACCESS, `result` what G_EXIT answers. -/
def guardedAccess (a : Addr) (sentinel : Byte) (access : State → Result) (result : State → Byte) (s : State) : Result :=
  match s.ph with
  | .idle => .next (gValidate a sentinel s)
  | .gValidate => .next (gValidate a sentinel s)
  | .gPoll => .next (gPoll s)
  | .gEnter => .next (gEnter s)
  | .gRecheck => .next (gRecheck s)
  | .gAccess => access s
  | .gExit => .next (gExit (result s) s)
  | _ => .refused .foreignPhase

/-- The micro-step of an atomic section without re-check at phase PH (R135); A_ENTER is the first one (30_encoding.md
R79). -/
def atomicSection (access : State → State) (s : State) : Result :=
  match s.ph with
  | .idle => .next (s.enterSection.toPhase .aAccess)
  | .aEnter => .next (s.enterSection.toPhase .aAccess)
  | .aAccess => .next ((access s).toPhase .aExit)
  | .aExit => .next (s.exitSection.respond 0x00)
  | _ => .refused .foreignPhase

end Sys2Proof.Machine
end

