-- ==== Sys2Proof/Machine/Eeprom.lean ====
section
/-! DEFINITION. The EEPROM commands and the EEPROM controller's own step (spec/42_eeprom.md). -/

namespace Sys2Proof.Machine

/-- EE_IS_READY (R140). -/
def execEeIsReady (s : State) : Result := .next (s.respond (boolByte s.eeReady))

/-- G_ACCESS of EE_READ (R142). -/
def readAccess (a : Addr) (s : State) : Result := andThen (s.readEe a) fun t => .next (t.toPhase .gExit)

/-- G_ACCESS of EE_WRITE (R145): program, latch, commit, in that order (R144). -/
def writeAccess (a : Addr) (d : Byte) (s : State) : Result :=
  andThen (s.programEe a d).latch.commit fun t => .next (t.toPhase .gExit)

/-- G_ACCESS of EE_UPDATE (R146): one read, and one write only if the stored byte differs. -/
def updateAccess (a : Addr) (d : Byte) (s : State) : Result :=
  andThen (s.readEe a) fun t =>
    if t.tmp ≠ d then
      andThen { t with eedr := d }.latch.commit fun u => .next (u.toPhase .gExit)
    else .next (t.toPhase .gExit)

/-- EE_READ a (R141, R142): answers EE_SENTINEL for an invalid address, else the byte read. -/
def execEeRead (a : Addr) (s : State) : Result :=
  guardedAccess a s.cfg.eeSentinel (readAccess a) State.tmp s

/-- EE_WRITE a, d (R141, R145). -/
def execEeWrite (a : Addr) (d : Byte) (s : State) : Result :=
  guardedAccess a 0x00 (writeAccess a d) (fun _ => 0x00) s

/-- EE_UPDATE a, d (R141, R146). -/
def execEeUpdate (a : Addr) (d : Byte) (s : State) : Result :=
  guardedAccess a 0x00 (updateAccess a d) (fun _ => 0x00) s

/-- EE_MEM after a completion at an address outside the store, which a handler may have programmed: there is no byte to
write, and which byte of the store changes instead, if any, is a draw (log entry 11). -/
def strayWrite (stray : Option (Nat × Byte)) (s : State) : Memory :=
  match stray with
  | some (n, v) => if n < s.cfg.size then s.eeMem.set n v else s.eeMem
  | none => s.eeMem

/-- `MemWrite(EE_PEND.addr, 1, EE_PEND.data)` of the controller (R150). -/
def completedMemory (stray : Option (Nat × Byte)) (s : State) : Memory :=
  if s.eePendAddr.toNat < s.cfg.size then s.eeMem.set s.eePendAddr.toNat s.eePendData else strayWrite stray s

/-- The completion step of EEP (R150), enabled iff EE_BUSY = 1. -/
def eepStep (stray : Option (Nat × Byte)) (s : State) : State :=
  if s.eeBusy then { s with eeMem := completedMemory stray s, eeBusy := false } else s

end Sys2Proof.Machine
end

