-- ==== Sys2Proof/Machine/ErrorRegister.lean ====
section
/-! DEFINITION. The error register commands (spec/40_error_register.md R100 to R103). -/

namespace Sys2Proof.Machine

/-- ERR_READ (R100). -/
def execErrRead (s : State) : Result := .next (s.respond s.err)

/-- ERR_SET d (R101): every bit of `d` becomes 1 in ERR, none becomes 0. -/
def execErrSet (d : Byte) (s : State) : Result := .next ((s.orErr d).respond 0x00)

/-- ERR_CLEAR (R103): the explicit clear, `ERR <- CODE_NONE`. -/
def execErrClear (s : State) : Result := .next ({ s with err := s.cfg.codeNone }.respond 0x00)

end Sys2Proof.Machine
end

