-- ==== Sys2Proof/Machine/Usart.lean ====
section
/-! DEFINITION. The USART commands and the USART's own steps (spec/43_usart.md). -/

namespace Sys2Proof.Machine

/-- A_ACCESS of US_INIT (R171), less its `PH <- A_EXIT`. -/
def initAccess (s : State) : State :=
  { s with
    rxQ := s.rxQ.map RxEntry.clearErrors
    fmt := .f8n1
    baud := s.cfg.baudDiv
    txen := s.cfg.txEn
    rxen := s.cfg.rxEn
    configured := true }

/-- US_INIT (R171): an atomic section without re-check. -/
def execUsInit (s : State) : Result := atomicSection initAccess s

/-- US_TX_IS_READY (R173). -/
def execUsTxIsReady (s : State) : Result := .next (s.respond (boolByte s.udre))

/-- US_TX_IS_TRANSMITTED (R174). -/
def execUsTxIsTransmitted (s : State) : Result := .next (s.respond (boolByte s.txc))

/-- US_RX_IS_READY (R175). -/
def execUsRxIsReady (s : State) : Result := .next (s.respond (boolByte s.rxc))

/-- T_START (R176): a line-feed is preceded by a carriage-return where CFG_CRLF = 1. -/
def tStart (d : Byte) (s : State) : State :=
  if d = s.cfg.charLf ∧ s.cfg.crlf = true then { s with cur := s.cfg.charCr, nxt := some d, ph := .tPoll }
  else { s with cur := d, nxt := none, ph := .tPoll }

/-- T_POLL (R177). -/
def tPoll (s : State) : State := if s.udre then s.toPhase .tWrite else s.toPhase .tPoll

/-- T_WRITE (R178): the fault stands for a broken single-writer assumption (60_exceptions.md R211). -/
def tWrite (s : State) : Result :=
  if s.udre then
    match s.nxt with
    | some b =>
      .next { s with txdr := s.cur, udre := false, txc := false, cur := b, nxt := none, ph := .tPoll }
    | none => .next ({ s with txdr := s.cur, udre := false, txc := false }.respond 0x00)
  else raiseFault .txCollision

/-- US_TX_BYTE d (R176 to R178); T_START is the first micro-step (30_encoding.md R79). -/
def execUsTxByte (d : Byte) (s : State) : Result :=
  match s.ph with
  | .idle => .next (tStart d s)
  | .tStart => .next (tStart d s)
  | .tPoll => .next (tPoll s)
  | .tWrite => tWrite s
  | _ => .refused .foreignPhase

/-- R_POLL (R180). -/
def rPoll (s : State) : State := if s.rxc then s.toPhase .rInspect else s.toPhase .rPoll

/-- R_INSPECT (R181): the codes of the head entry, in one OR. -/
def rInspect (s : State) : Result :=
  match s.rxQ with
  | [] => raiseFault .rxEmpty
  | h :: _ => .next ((s.orErr (rxCodes s.cfg h)).toPhase .rRead)

/-- R_READ (R182): the read pops the head entry and its status bits. -/
def rRead (s : State) : Result :=
  match s.rxQ with
  | [] => raiseFault .rxEmpty
  | h :: rest => .next ({ s with rxQ := rest }.respond h.data)

/-- US_RX_BYTE (R180 to R182); R_POLL is the first micro-step (30_encoding.md R79). -/
def execUsRxByte (s : State) : Result :=
  match s.ph with
  | .idle => .next (rPoll s)
  | .rPoll => .next (rPoll s)
  | .rInspect => rInspect s
  | .rRead => rRead s
  | _ => .refused .foreignPhase

/-- US_TXIE_ON (R184). -/
def execUsTxieOn (s : State) : Result := .next ({ s with txie := true }.respond 0x00)

/-- US_TXIE_OFF (R185). -/
def execUsTxieOff (s : State) : Result := .next ({ s with txie := false }.respond 0x00)

/-- US_RXIE_ON (R186). -/
def execUsRxieOn (s : State) : Result := .next ({ s with rxie := true }.respond 0x00)

/-- US_RXIE_OFF (R187). -/
def execUsRxieOff (s : State) : Result := .next ({ s with rxie := false }.respond 0x00)

/-- Transmit hand-over of UTX (R190), enabled iff UDRE = 0, TXEN = 1 and SHIFT_BUSY = 0. -/
def txHandOver (s : State) : State :=
  if !s.udre && s.txen && !s.shiftBusy then { s with shiftByte := s.txdr, shiftBusy := true, udre := true } else s

/-- Transmit completion of UTX (R191), enabled iff SHIFT_BUSY = 1. -/
def txComplete (s : State) : State :=
  if s.shiftBusy then
    { s with wireTx := s.wireTx ++ [s.shiftByte], shiftBusy := false, txc := s.txc || s.udre }
  else s

/-- Receive arrival of URX (R192), enabled iff RXEN = 1; into a full queue the byte is lost and the last entry is marked. -/
def rxArrive (x : Byte) (p o f : Bool) (s : State) : State :=
  if s.rxen then
    if s.rxQ.length < s.cfg.rxqDepth then
      { s with rxQ := s.rxQ ++ [{ data := x, upe := p, dor := o, fe := f }] }
    else { s with rxQ := markOverrun s.rxQ }
  else s

end Sys2Proof.Machine
end

