-- ==== Sys2Proof/Machine/Dispatch.lean ====
section
/-! DEFINITION. The meaning of each command: the micro-step it takes at phase PH (spec/10_state.md R26, R40; log entry 7). -/

namespace Sys2Proof.Machine

def exec (i : Instr) (s : State) : Host.Outcome State Fault Refusal :=
  match i with
  | .csEnter => Sys2Proof.Machine.execCsEnter s
  | .csExit t => Sys2Proof.Machine.execCsExit t s
  | .errRead => Sys2Proof.Machine.execErrRead s
  | .errSet d => Sys2Proof.Machine.execErrSet d s
  | .errClear => Sys2Proof.Machine.execErrClear s
  | .eeIsReady => Sys2Proof.Machine.execEeIsReady s
  | .eeRead a => Sys2Proof.Machine.execEeRead a s
  | .eeWrite a d => Sys2Proof.Machine.execEeWrite a d s
  | .eeUpdate a d => Sys2Proof.Machine.execEeUpdate a d s
  | .usInit => Sys2Proof.Machine.execUsInit s
  | .usTxIsReady => Sys2Proof.Machine.execUsTxIsReady s
  | .usTxIsTransmitted => Sys2Proof.Machine.execUsTxIsTransmitted s
  | .usRxIsReady => Sys2Proof.Machine.execUsRxIsReady s
  | .usTxByte d => Sys2Proof.Machine.execUsTxByte d s
  | .usRxByte => Sys2Proof.Machine.execUsRxByte s
  | .usTxieOn => Sys2Proof.Machine.execUsTxieOn s
  | .usTxieOff => Sys2Proof.Machine.execUsTxieOff s
  | .usRxieOn => Sys2Proof.Machine.execUsRxieOn s
  | .usRxieOff => Sys2Proof.Machine.execUsRxieOff s

end Sys2Proof.Machine
end

