-- ==== Sys2Proof/Machine/Reset.lean ====
section
/-! DEFINITION. The two reset inputs (spec/70_reset_and_hazards.md R230 to R236). -/

namespace Sys2Proof.Machine

/-- EE_MEM across a reset (R236): a write in flight leaves its byte at a draw; every other byte is unchanged. -/
def resetMemory (d : ResetDraw) (s : State) : Memory :=
  if s.eeBusy = true ∧ s.eePendAddr.toNat < s.cfg.size then s.eeMem.set s.eePendAddr.toNat d.cell else s.eeMem

/-- What both resets do (R231, R234): the command in flight is aborted without a response, and SEQ may step again
(60_exceptions.md R210). FAULTS is no reset target (10_state.md R38), and the parameters and the host's own program are not
the block's (log entry 17). -/
def resetBoth (d : ResetDraw) (s : State) : State where
  cfg := s.cfg
  ie := false
  err := s.err
  ph := .idle
  cmd := d.cmd
  sav := d.sav
  tmp := d.tmp
  cur := d.cur
  nxt := d.nxt
  rspValid := false
  rspIll := false
  rspData := 0x00
  eeMem := resetMemory d s
  eear := d.eear
  eedr := d.eedr
  eeLatch := false
  eeBusy := false
  eePendAddr := d.eePendAddr
  eePendData := d.eePendData
  spmBusy := false
  eeWrCount := s.eeWrCount
  configured := false
  txen := false
  rxen := false
  fmt := d.fmt
  baud := d.baud
  txie := false
  rxie := false
  udre := true
  txdr := d.txdr
  shiftBusy := false
  shiftByte := d.shiftByte
  txc := false
  wireTx := []
  rxQ := []
  extIrq := d.extIrq
  faults := s.faults
  seqStopped := false
  port := s.port
  sched := s.sched
  again := s.again
  freeTurns := s.freeTurns

/-- WARM_RST (R233): ERR and EE_WR_COUNT keep their values. -/
def warmReset (d : ResetDraw) (s : State) : State := resetBoth d s

/-- COLD_RST (R232): `ERR <- CODE_NONE`, `EE_WR_COUNT <- 0`. -/
def coldReset (d : ResetDraw) (s : State) : State :=
  { resetBoth d s with err := s.cfg.codeNone, eeWrCount := 0 }

end Sys2Proof.Machine
end

