-- ==== Sys2Proof/Machine/Agents.lean ====
section
/-! DEFINITION. The agents (spec/10_state.md R40): the main line, HOST with SEQ, and the others. An event whose agent is
not enabled changes nothing (log entry 5). -/

namespace Sys2Proof.Machine

/-- The phases that a command can be in while it is in flight (10_state.md R26). Commands of a single micro-step never
leave IDLE. -/
def phasesOf : Instr → List Phase
  | .csEnter => []
  | .csExit _ => []
  | .errRead => []
  | .errSet _ => []
  | .errClear => []
  | .eeIsReady => []
  | .eeRead _ => [.gValidate, .gPoll, .gEnter, .gRecheck, .gAccess, .gExit]
  | .eeWrite _ _ => [.gValidate, .gPoll, .gEnter, .gRecheck, .gAccess, .gExit]
  | .eeUpdate _ _ => [.gValidate, .gPoll, .gEnter, .gRecheck, .gAccess, .gExit]
  | .usInit => [.aEnter, .aAccess, .aExit]
  | .usTxIsReady => []
  | .usTxIsTransmitted => []
  | .usRxIsReady => []
  | .usTxByte _ => [.tStart, .tPoll, .tWrite]
  | .usRxByte => [.rPoll, .rInspect, .rRead]
  | .usTxieOn => []
  | .usTxieOff => []
  | .usRxieOn => []
  | .usRxieOff => []

/-- `p` is a phase of command `i` in flight (10_state.md R26). -/
def hasPhase (i : Instr) (p : Phase) : Bool := decide (p ∈ phasesOf i)

/-- What a micro-step of `i` that raises a fault wrote before the `raise` in its pseudocode (60_exceptions.md R210): the
registers that G_ACCESS programs before `commit` (42_eeprom.md R145, R146). T_WRITE, R_INSPECT and R_READ write nothing before
theirs. -/
def atRaise (i : Instr) (s : State) : State :=
  match i with
  | .csEnter => s
  | .csExit _ => s
  | .errRead => s
  | .errSet _ => s
  | .errClear => s
  | .eeIsReady => s
  | .eeRead _ => s
  | .eeWrite a d => s.programEe a d
  | .eeUpdate a d => { s.programEe a d with tmp := s.eeByte a.toNat }
  | .usInit => s
  | .usTxIsReady => s
  | .usTxIsTransmitted => s
  | .usRxIsReady => s
  | .usTxByte _ => s
  | .usRxByte => s
  | .usTxieOn => s
  | .usTxieOff => s
  | .usRxieOn => s
  | .usRxieOff => s

/-- The micro-step of `i`, with the fault that it raises, if it raises one, recorded (60_exceptions.md R210; log entry 9). -/
def runCommand (i : Instr) (s : State) : Result :=
  match exec i s with
  | .next t => .next t
  | .fault r => .next ((atRaise i s).recordFault r)
  | .refused r => .refused r

/-- HOST presents the word `w` (30_encoding.md R79): an illegal word only answers RSP_ILL (R80); a legal one is accepted
and its first micro-step is taken in this same step. -/
def present (w : Word) (s : State) : Result :=
  match decode w with
  | .error _ => .next s.respondIllegal
  | .ok i => runCommand i (s.accept w)

/-- HOST (30_encoding.md R79), PH = IDLE: it presents the next word of its program, if it has settled on one (log entry
6). -/
def hostStep (s : State) : Result :=
  match s.port with
  | [] => .next s
  | w :: rest => present w (s.withPort rest)

/-- SEQ (10_state.md R40), PH not IDLE: the micro-step of the current phase of the command in CMD, unless a fault has
stopped it (60_exceptions.md R210). -/
def seqStep (s : State) : Result :=
  if s.seqStopped then .next s
  else
    match decode s.cmd with
    | .error _ => .refused .noCommand
    | .ok i => if hasPhase i s.ph then runCommand i s else .refused .foreignPhase

/-- The main line: HOST when PH = IDLE, SEQ otherwise (10_state.md R41). -/
def mainStep (s : State) : Result := if s.ph = .idle then hostStep s else seqStep s

/-- The step of the agent that an event names (10_state.md R40, R42). -/
def agentStep (e : Event) (s : State) : Result :=
  match e with
  | .main => mainStep s
  | .irq x => .next (if s.irqEnabled then interfere x s else s)
  | .eep stray => .next (eepStep stray s)
  | .txHandOver => .next (txHandOver s)
  | .txComplete => .next (txComplete s)
  | .rxArrive x p o f => .next (rxArrive x p o f s)
  | .setExtIrq b => .next { s with extIrq := b }
  | .spmStart => .next (if s.ph = .idle then { s with spmBusy := true } else s)
  | .spmEnd => .next { s with spmBusy := false }
  | .coldReset d => .next (coldReset d s)
  | .warmReset d => .next (warmReset d s)
  | .hostWord w => .next { s with port := s.port ++ [w] }

/-- The events that the lists name from here on: `sched`, and `again` whenever that has run out. -/
def State.upcoming (s : State) : List Event :=
  match s.sched with
  | [] => s.again
  | e :: rest => e :: rest

/-- Whose turn it is, and the state with that turn taken: the next of the two lists, or, where neither has an event, the
next of the free order of turns (10_state.md R40; log entry 4). -/
def nextTurn (s : State) : Event × State :=
  match s.upcoming with
  | [] => (Config.eventAt s.freeTurns, { s with freeTurns := s.freeTurns + 1 })
  | e :: rest => (e, { s with sched := rest })

end Sys2Proof.Machine
end

