-- ==== Sys2Proof/Machine/Step.lean ====
section
/-! DEFINITION. One step of a run: the atomic step of one agent (spec/10_state.md R40). -/

namespace Sys2Proof.Machine

/-- The step of the agent whose turn it is. -/
def step (s : State) : Host.Outcome State Fault Refusal := agentStep (nextTurn s).1 (nextTurn s).2

/-- `s` with the word of `nbits` and `w` next on the port, the main line's turn next and no command in flight: all that HOST
needs to present it (30_encoding.md R79, log entry 6). -/
def State.withFetchWord (s : State) (nbits w : Nat) : State :=
  { s with port := tableWord nbits w :: s.port, sched := .main :: s.sched, ph := .idle, seqStopped := false }

end Sys2Proof.Machine
end

