-- ==== Sys2Proof/WellFormed.lean ====
section
/-! DEFINITION. What is checked before a run: the ranges of the parameters (spec/00_scope.md R7, R14) and of the numbers
an assembler line gives for operands (spec/30_encoding.md R82). A term of `Instr` needs no check of its own: its
operand types have exactly the widths of R72 and R73, so every term is well formed. -/

namespace Sys2Proof

/-- SIZE is between 1 and 65536 (00_scope.md R7). -/
def Config.sizeOk (c : Config) : Bool := decide (1 ≤ c.size ∧ c.size ≤ 65536)

/-- RXQ_DEPTH is at least 1 (00_scope.md R14). -/
def Config.depthOk (c : Config) : Bool := decide (1 ≤ c.rxqDepth)

/-- The parameters are in their ranges (00_scope.md R7, R14). -/
def Config.wellFormed (c : Config) : Bool := c.sizeOk && c.depthOk

/-- A token operand fits 1 bit (30_encoding.md R82). -/
def fitsToken (n : Nat) : Bool := decide (n < 2)

/-- A byte operand fits 8 bits (30_encoding.md R82). -/
def fitsByte (n : Nat) : Bool := decide (n < 256)

/-- An address operand fits 16 bits (30_encoding.md R82). -/
def fitsAddr (n : Nat) : Bool := decide (n < 65536)

end Sys2Proof
end

