-- ==== Sys2Proof/Machine/Assembler.lean ====
section
/-! DEFINITION. The assembler syntax and the pseudo-commands of the spec (spec/30_encoding.md R82, R83; log entry 16). The
machine does not use it: it says which words a host's source line stands for. -/

namespace Sys2Proof.Machine

/-- Why the assembler refuses a line (30_encoding.md R82). -/
inductive AsmError where
  | unknownMnemonic
  | wrongOperands
  | badNumber
  | outOfRange
  deriving DecidableEq, Repr

/-- The NOP pseudo-command (30_encoding.md R83). -/
def nop : Instr := .errSet 0x00

/-- The ATOMIC pseudo-command around `body`, with the token `t` that its CS_ENTER answers (30_encoding.md R83). -/
def atomic (t : Bool) (body : List Instr) : List Instr := .csEnter :: (body ++ [.csExit t])

/-- The token operand (30_encoding.md R82). -/
def asmToken (n : Nat) : Except AsmError Bool := if fitsToken n then .ok (n == 1) else .error .outOfRange

/-- A byte operand (30_encoding.md R82). -/
def asmByte (n : Nat) : Except AsmError Byte := if fitsByte n then .ok (BitVec.ofNat 8 n) else .error .outOfRange

/-- An address operand (30_encoding.md R82). -/
def asmAddr (n : Nat) : Except AsmError Addr := if fitsAddr n then .ok (BitVec.ofNat 16 n) else .error .outOfRange

/-- The command of a mnemonic with its operands (30_encoding.md R82). -/
def assemble (m : String) (operands : List Nat) : Except AsmError Instr :=
  match m, operands with
  | "CS_ENTER", [] => .ok .csEnter
  | "CS_EXIT", [t] => (asmToken t).map .csExit
  | "ERR_READ", [] => .ok .errRead
  | "ERR_SET", [d] => (asmByte d).map .errSet
  | "ERR_CLEAR", [] => .ok .errClear
  | "EE_IS_READY", [] => .ok .eeIsReady
  | "EE_READ", [a] => (asmAddr a).map .eeRead
  | "EE_WRITE", [a, d] => do return .eeWrite (← asmAddr a) (← asmByte d)
  | "EE_UPDATE", [a, d] => do return .eeUpdate (← asmAddr a) (← asmByte d)
  | "US_INIT", [] => .ok .usInit
  | "US_TX_IS_READY", [] => .ok .usTxIsReady
  | "US_TX_IS_TRANSMITTED", [] => .ok .usTxIsTransmitted
  | "US_RX_IS_READY", [] => .ok .usRxIsReady
  | "US_TX_BYTE", [d] => (asmByte d).map .usTxByte
  | "US_RX_BYTE", [] => .ok .usRxByte
  | "US_TXIE_ON", [] => .ok .usTxieOn
  | "US_TXIE_OFF", [] => .ok .usTxieOff
  | "US_RXIE_ON", [] => .ok .usRxieOn
  | "US_RXIE_OFF", [] => .ok .usRxieOff
  | "NOP", [] => .ok nop
  | m, _ =>
    if (opcodeMap.map Row.mnemonic ++ ["NOP"]).contains m then .error .wrongOperands else .error .unknownMnemonic

/-- The value of a digit in the given base, 10 or 16. -/
def digitValue (base : Nat) (c : Char) : Option Nat :=
  let v := if '0' ≤ c ∧ c ≤ '9' then c.toNat - 48
    else if 'a' ≤ c ∧ c ≤ 'f' then c.toNat - 87
    else if 'A' ≤ c ∧ c ≤ 'F' then c.toNat - 55
    else base
  if v < base then some v else none

/-- The number that `digits` continue from `acc`. -/
def digitsFrom (base acc : Nat) (digits : List Char) : Option Nat :=
  match digits with
  | [] => some acc
  | c :: rest =>
    match digitValue base c with
    | some v => digitsFrom base (acc * base + v) rest
    | none => none

/-- A number, decimal or `0x` hexadecimal (30_encoding.md R82). -/
def asmNumber (text : List Char) : Except AsmError Nat :=
  let read (base : Nat) (digits : List Char) : Except AsmError Nat :=
    if digits.isEmpty then .error .badNumber
    else
      match digitsFrom base 0 digits with
      | some n => .ok n
      | none => .error .badNumber
  match text with
  | '0' :: 'x' :: digits => read 16 digits
  | digits => read 10 digits

/-- The text without the blanks at its two ends. -/
def trimBlanks (text : List Char) : List Char :=
  ((text.dropWhile (· == ' ')).reverse.dropWhile (· == ' ')).reverse

/-- The pieces of a text between its commas. -/
def splitCommas (text : List Char) : List (List Char) :=
  match text with
  | [] => [[]]
  | c :: rest =>
    if c = ',' then [] :: splitCommas rest
    else
      match splitCommas rest with
      | [] => [[c]]
      | piece :: pieces => (c :: piece) :: pieces

/-- The text before `->`, and the host variable after it (30_encoding.md R82). -/
def splitArrow (text : List Char) : List Char × Option (List Char) :=
  match text with
  | [] => ([], none)
  | '-' :: '>' :: rest => ([], some (trimBlanks rest))
  | c :: rest => let r := splitArrow rest; (c :: r.1, r.2)

/-- The numbers of the operands of a line. -/
def asmOperands (text : List Char) : Except AsmError (List Nat) :=
  if (trimBlanks text).isEmpty then .ok []
  else (splitCommas text).mapM fun piece => asmNumber (trimBlanks piece)

/-- A source line: the command, and the host variable that receives RSP_DATA (30_encoding.md R82). -/
def assembleLine (line : String) : Except AsmError (Instr × Option String) :=
  let parts := splitArrow line.toList
  let text := trimBlanks parts.1
  match asmOperands (text.dropWhile (· != ' ')) with
  | .error e => .error e
  | .ok ops => (assemble (String.ofList (text.takeWhile (· != ' '))) ops).map fun i => (i, parts.2.map String.ofList)

end Sys2Proof.Machine
end

