-- ==== Sys2Proof/Safety.lean ====
section
/-! DEFINITION. The terms in which claims about runs are made: whose turn it is, what the next step ORs into ERR, the
invariant of the block, runs of several steps and well-nested sections. -/

namespace Sys2Proof.Machine

/-- `k` steps of the machine. -/
def runSteps (k : Nat) (s : State) : Result := Host.Core.run Sys2Proof.core k s

/-- The final state of the run of `k` steps, which it has only while FAULTS is empty (10_state.md R38). -/
def finalState (k : Nat) (s : State) : Option State :=
  match runSteps k s with
  | .next t => if t.faults = [] then some t else none
  | .fault _ => none
  | .refused _ => none

/-- The event whose turn it is. -/
def State.turn (s : State) : Event := (nextTurn s).1

/-- The state with that turn taken off the lists or the free order; nothing else differs. -/
def State.taken (s : State) : State := (nextTurn s).2

/-- HOST presents in the next step: the main line's turn, no command in flight. -/
def State.hostNow (s : State) : Prop := s.turn = .main ∧ s.ph = .idle

/-- SEQ steps next: the main line's turn, a command in flight, and no fault has stopped it (10_state.md R40,
60_exceptions.md R210). -/
def State.seqNow (s : State) : Prop := s.turn = .main ∧ s.ph ≠ .idle ∧ s.seqStopped = false

/-- Nothing but the main line steps from here on. -/
def State.mainOnly (s : State) : Prop := s.sched = [] ∧ s.again = [.main]

/-- HOST presents a word in the next step (30_encoding.md R79). -/
def State.presents (s : State) : Bool := s.turn = .main && s.ph = .idle && !s.port.isEmpty

/-- How many of the next `k` steps are taken from a state that `p` names. -/
def countSteps (p : State → Bool) : Nat → State → Nat
  | 0, _ => 0
  | k + 1, s =>
    (if p s then 1 else 0) +
      match step s with
      | .next t => countSteps p k t
      | .fault _ => 0
      | .refused _ => 0

/-- How many of the next `k` steps are the main line's. -/
def mainTurns (k : Nat) (s : State) : Nat := countSteps (fun u => u.turn = .main) k s

/-- How many words HOST presents in the next `k` steps. -/
def presentations (k : Nat) (s : State) : Nat := countSteps State.presents k s

/-- The event is one of the two resets. -/
def Event.isReset : Event → Bool
  | .coldReset _ => true
  | .warmReset _ => true
  | _ => false

/-- The event is the EEPROM's completion. -/
def Event.isEep : Event → Bool
  | .eep _ => true
  | _ => false

/-- The event is an interrupt handler's. -/
def Event.isIrq : Event → Bool
  | .irq _ => true
  | _ => false

/-- The command that HOST presents in the next step, if it presents a legal word. -/
def State.presented (s : State) : Option Instr :=
  match s.turn, s.ph, s.port with
  | .main, .idle, w :: _ => (decode w).toOption
  | _, _, _ => none

/-- The EEPROM address of a command, if it has one (30_encoding.md R72). -/
def addressOf : Instr → Option Addr
  | .eeRead a => some a
  | .eeWrite a _ => some a
  | .eeUpdate a _ => some a
  | _ => none

/-- The phases in which the block holds its own critical section open, IE = 0 (41_synchronizer.md R126, R135). -/
def Phase.masked : Phase → Bool
  | .gRecheck | .gAccess | .gExit | .aAccess | .aExit => true
  | _ => false

/-- The phases of a guarded access after its address was found valid (41_synchronizer.md R126). -/
def Phase.validated : Phase → Bool
  | .gPoll | .gEnter | .gRecheck | .gAccess | .gExit => true
  | _ => false

/-- What holds in every state of a run from reset: the guarantee of 20_memory.md R63 and what it rests on. -/
structure Inv (s : State) : Prop where
  /-- EE_MEM is in its canonical form. -/
  memCanonical : s.eeMem.wf = true
  /-- EE_MEM lists no address outside [0, SIZE) (20_memory.md R50). -/
  memWithin : s.eeMem.within s.cfg.size = true
  /-- The enable-latch is not armed between micro-steps (42_eeprom.md R151). -/
  latchOff : s.eeLatch = false
  /-- IE = 0 inside the block's critical section (41_synchronizer.md R126). -/
  maskedIe : s.ph.masked = true → s.ie = false
  /-- EE_READY holds when G_ACCESS executes (20_memory.md R63). -/
  accessReady : s.ph = .gAccess → s.eeReady = true
  /-- PH holds a phase of the command in CMD (10_state.md R24, R26). -/
  phaseOfCommand : s.ph ≠ .idle → ∃ i, decode s.cmd = .ok i ∧ hasPhase i s.ph = true
  /-- Past G_VALIDATE the address is valid (41_synchronizer.md R131). -/
  addressValid : ∀ i a, decode s.cmd = .ok i → addressOf i = some a → s.ph.validated = true → s.validAddr a = true
  /-- No response is present while a command is in flight (30_encoding.md R79, R81). -/
  noResponseYet : s.ph ≠ .idle → s.rspValid = false
  /-- TXC says that nothing is waiting or being shifted out (43_usart.md R174). -/
  txcIdle : s.txc = true → s.udre = true ∧ s.shiftBusy = false
  /-- RX_Q holds at most RXQ_DEPTH entries (10_state.md R36). -/
  rxBounded : s.rxQ.length ≤ s.cfg.rxqDepth
  /-- No reason is listed twice: FAULTS is a set (10_state.md R38). -/
  faultsSet : s.faults.Nodup
  /-- A fault that stopped SEQ left its command in flight and its reason in FAULTS (60_exceptions.md R210). -/
  stoppedInFlight : s.seqStopped = true → s.ph ≠ .idle ∧ s.faults ≠ []

/-- IE = 0 and no section of the block is open that would set it to 1 on exit (41_synchronizer.md R133). -/
def State.keptMasked (s : State) : Prop := s.ie = false ∧ (s.ph.masked = true → s.sav = false)

/-- The codes of the head entry of RX_Q. -/
def headCodes (s : State) : Byte :=
  match s.rxQ with
  | [] => 0
  | h :: _ => rxCodes s.cfg h

/-- What G_VALIDATE of a command ORs into ERR (42_eeprom.md R141). -/
def addressCode (s : State) (i : Instr) : Byte :=
  match addressOf i with
  | some a => if s.validAddr a then 0 else s.cfg.codeEeBadAddr
  | none => 0

/-- What the first micro-step of a presented command ORs into ERR. -/
def presentedMask (s : State) : Byte :=
  match s.presented with
  | some (.errSet d) => d
  | some i => addressCode s i
  | none => 0

/-- What the micro-step of the command in flight ORs into ERR, unless a fault has stopped SEQ. -/
def flightMask (s : State) : Byte :=
  if s.seqStopped then 0
  else
    match s.ph with
    | .gValidate => (match decode s.cmd with | .ok i => addressCode s i | .error _ => 0)
    | .rInspect => headCodes s
    | _ => 0

/-- The mask that the next step ORs into ERR: its writers other than ERR_CLEAR and cold reset (10_state.md R23). -/
def errMask (s : State) : Byte :=
  match s.turn with
  | .main => if s.ph = .idle then presentedMask s else flightMask s
  | .irq e => if s.irqEnabled then e.errMask else 0
  | _ => 0

/-- The next step is ERR_CLEAR or a cold reset (10_state.md R23). -/
def clearsErr (s : State) : Prop := s.presented = some .errClear ∨ ∃ d, s.turn = .coldReset d

/-- The union of the masks that the next `k` steps OR into ERR. -/
def errMasks : Nat → State → Byte
  | 0, _ => 0
  | k + 1, s =>
    match step s with
    | .next t => errMask s ||| errMasks k t
    | _ => 0

/-- None of the next `k` steps clears ERR. -/
def neverClears : Nat → State → Prop
  | 0, _ => True
  | k + 1, s => ¬ clearsErr s ∧ ∀ t, step s = .next t → neverClears k t

/-- The outcome with ERR blotted out of its state. -/
def withoutErr (o : Result) : Result :=
  match o with
  | .next s => .next { s with err := 0 }
  | .fault r => .fault r
  | .refused r => .refused r

/-- No event still to happen is one that `p` names: not in the two lists, nor, where they run out, in the free order. -/
structure NoEvent (p : Event → Bool) (s : State) : Prop where
  listed : ∀ e ∈ s.sched ++ s.again, p e = false
  free : s.again = [] → ∀ n, p (Config.eventAt (s.freeTurns + n)) = false

/-- CS_ENTER and CS_EXIT. -/
def isSectionCommand : Instr → Bool
  | .csEnter => true
  | .csExit _ => true
  | _ => false

/-- A host sequence in which every section is an ATOMIC of 30_encoding.md R83, closed by the token of its own CS_ENTER,
which is IE where it is opened (41_synchronizer.md R121, R124): `b` there, 0 inside. -/
inductive WellNested : Bool → List Instr → Prop where
  | done (b : Bool) : WellNested b []
  | command (b : Bool) (i : Instr) (rest : List Instr) :
      isSectionCommand i = false → WellNested b rest → WellNested b (i :: rest)
  | enclosed (b : Bool) (body rest : List Instr) :
      WellNested false body → WellNested b rest → WellNested b (atomic b body ++ rest)

end Sys2Proof.Machine
end

