-- ==== Sys2Proof/Certificates/Slice0/Obligations.lean ====
section
/-! DEFINITION. The statements about the model, from the numbered rules of spec/. Each docstring names the rule it
formalises; 'log entry <n>' is notes/assumptions/<n>.md. -/

open Sys2Proof Sys2Proof.Machine

/-! Encoding (30_encoding.md). -/

/-- Every command, with every operand, is what its encoding decodes to (R74, R75, R76). -/
def Obligations.DecodeOfEncode : Prop := ∀ i : Instr, decode (encode i) = .ok i

/-- A legal word is the encoding of the command it decodes to: no bit of it is dropped (R74, R75). -/
def Obligations.EncodeOfDecode : Prop := ∀ (w : Word) (i : Instr), decode w = .ok i → encode i = w

/-- A word is illegal iff it selects no row of the opcode map, and a legal word decodes to the command of the row it
selects (R76, R77). -/
def Obligations.DecodeFollowsOpcodeMap : Prop :=
  ∀ w : Word,
    ((∃ e, decode w = .error e) ↔ ∀ r ∈ opcodeMap, w &&& r.format.mask ≠ r.pattern) ∧
    ∀ r ∈ opcodeMap, w &&& r.format.mask = r.pattern → ∃ i, decode w = .ok i ∧ i.mnemonic = r.mnemonic

/-- The all-zero word is illegal, so a port that presents it issues no command: nothing but the response changes (R78, which
the spec infers from R77). That the turn and the word are taken off lists of State, and that an illegal word has a next
state, is the model's choice (log entries 4, 6 and 12). -/
def Obligations.ZeroWordIssuesNothing : Prop :=
  decode 0x00000000#32 = .error (.reservedOpcode 0x00#8) ∧
  ∀ (s : State) (rest : List Word), s.hostNow → s.port = 0x00000000#32 :: rest →
    step s = .next { s.taken with port := rest, rspValid := true, rspIll := true, rspData := 0x00#8 }

/-- Words of 95_test_vectors.md section 2.1 decode as its table says. -/
def Obligations.VectorWordsDecode : Prop :=
  decode 0x01000000#32 = .ok .csEnter ∧ decode 0x02000001#32 = .ok (.csExit true) ∧
  decode 0x110000FF#32 = .ok (.errSet 0xFF#8) ∧ decode 0x21FFFF00#32 = .ok (.eeRead 0xFFFF#16) ∧
  decode 0x22FFFFFF#32 = .ok (.eeWrite 0xFFFF#16 0xFF#8) ∧ decode 0x3400000A#32 = .ok (.usTxByte 0x0A#8) ∧
  decode 0x39000000#32 = .ok .usRxieOff ∧ (decode 0x02000002#32).toOption = none ∧
  (decode 0x21000001#32).toOption = none ∧ (decode 0x3A000000#32).toOption = none

/-! HOST and SEQ (30_encoding.md R79, 10_state.md R40). -/

/-- HOST, PH = IDLE, presents a word: an illegal one only answers RSP_ILL; a legal one goes to CMD and its first micro-step
is taken in the same step (R79, R80). That the turn and the word are taken off lists of State, and that an illegal word has a
next state, is the model's choice (log entries 4, 6 and 12). -/
def Obligations.HostPresentsWord : Prop :=
  ∀ (s : State) (w : Word) (rest : List Word), s.hostNow → s.port = w :: rest →
    (∀ e, decode w = .error e →
      step s = .next { s.taken with port := rest, rspValid := true, rspIll := true, rspData := 0x00#8 }) ∧
    (∀ i, decode w = .ok i →
      step s = exec i { s.taken with port := rest, rspValid := false, rspIll := false, cmd := w })

/-- SEQ, PH not IDLE, takes the micro-step of the phase of the command in CMD (R40), and records the fault that it raises, if
it raises one; a stopped SEQ has no step (60_exceptions.md R210). That a turn without a step changes nothing, and that HOST
with no word to present changes nothing, is the model's choice (log entries 5, 6 and 9). -/
def Obligations.SequencerRunsCommandInFlight : Prop :=
  (∀ (s t : State) (i : Instr), s.seqNow → decode s.cmd = .ok i → hasPhase i s.ph = true →
    exec i s.taken = .next t → step s = .next t) ∧
  (∀ (s : State) (i : Instr) (r : Fault), s.seqNow → decode s.cmd = .ok i → hasPhase i s.ph = true →
    exec i s.taken = .fault r → ∃ t, step s = .next t ∧ r ∈ t.faults ∧ t.seqStopped = true ∧ t.ph = s.ph) ∧
  (∀ s : State, s.turn = .main → s.ph ≠ .idle → s.seqStopped = true → step s = .next s.taken) ∧
  (∀ s : State, s.hostNow → s.port = [] → step s = .next s.taken)

/-! The error register (40_error_register.md). -/

/-- ERR_READ answers ERR and changes only the response (R100). -/
def Obligations.ErrReadAnswersErr : Prop :=
  encode .errRead = 0x10000000#32 ∧ ∀ s : State, exec .errRead s =
    .next { s with rspValid := true, rspIll := false, rspData := s.err, ph := .idle }

/-- ERR_SET d ORs d into ERR and changes nothing else but the response (R101); d = 0x00 is the NOP pseudo-command. -/
def Obligations.ErrSetOrsMask : Prop :=
  ∀ (s : State) (d : Byte), encode (.errSet d) = 0x11000000#32 ||| d.setWidth 32 ∧ exec (.errSet d) s =
    .next { s with err := s.err ||| d, rspValid := true, rspIll := false, rspData := 0x00#8, ph := .idle }

/-- ERR_CLEAR writes CODE_NONE, by default 0x00, into ERR (R103). -/
def Obligations.ErrClearWritesNone : Prop :=
  encode .errClear = 0x12000000#32 ∧ Config.default.codeNone = 0x00#8 ∧
  ∀ s : State, exec .errClear s =
    .next { s with err := s.cfg.codeNone, rspValid := true, rspIll := false, rspData := 0x00#8, ph := .idle }

/-- No step but ERR_CLEAR and cold reset turns a bit of ERR from 1 to 0 (R106). -/
def Obligations.ErrBitsStaySet : Prop :=
  ∀ s t : State, step s = .next t → ¬ clearsErr s → s.err &&& t.err = s.err

/-- Over any interleaving of OR-writers without ERR_CLEAR and cold reset, the final ERR is the initial ERR with all the
masks OR-ed in (R107, which the spec infers from R55). It leans on the OR into ERR being indivisible, which the model presumes
of the chip (log entry 15, G-3). -/
def Obligations.ErrIsUnionOfMasks : Prop :=
  ∀ (k : Nat) (s t : State), neverClears k s → runSteps k s = .next t → t.err = s.err ||| errMasks k s

/-- No command but ERR_READ depends on ERR: started from two values of it, every micro-step of the command has the same
outcome but for ERR itself (R108). -/
def Obligations.CommandsIgnoreErr : Prop :=
  ∀ (i : Instr) (s : State) (e : Byte), i ≠ .errRead →
    withoutErr (exec i { s with err := e }) = withoutErr (exec i s)

/-- Under the default codes a parity error is absorbed by either other one, and overrun with frame reads 0x23 (R105). -/
def Obligations.DefaultCodesAlias : Prop :=
  ∀ x : Byte,
    rxCodes Config.default ⟨x, true, true, false⟩ = rxCodes Config.default ⟨x, false, true, false⟩ ∧
    rxCodes Config.default ⟨x, true, false, true⟩ = rxCodes Config.default ⟨x, false, false, true⟩ ∧
    rxCodes Config.default ⟨x, false, true, true⟩ = 0x23#8 ∧ rxCodes Config.default ⟨x, true, true, true⟩ = 0x23#8

/-! The synchronizer (41_synchronizer.md). -/

/-- CS_ENTER clears IE and answers its prior value (R120). -/
def Obligations.CsEnterAnswersPriorIe : Prop :=
  encode .csEnter = 0x01000000#32 ∧ ∀ s : State, exec .csEnter s =
    .next { s with ie := false, rspValid := true, rspIll := false, rspData := if s.ie then 0x01#8 else 0x00#8, ph := .idle }

/-- CS_EXIT t writes t into IE (R122). -/
def Obligations.CsExitWritesToken : Prop :=
  ∀ (s : State) (t : Bool), encode (.csExit t) = 0x02000000#32 ||| (if t then 1#32 else 0#32) ∧ exec (.csExit t) s =
    .next { s with ie := t, rspValid := true, rspIll := false, rspData := 0x00#8, ph := .idle }

/-- G_POLL of every EEPROM access spins while the EEPROM is not ready, and writes PH only (R127). -/
def Obligations.PollSpinsUntilReady : Prop :=
  ∀ (i : Instr) (a : Addr) (s : State), addressOf i = some a → s.ph = .gPoll →
    exec i s = .next { s with ph := if !s.eeBusy && !s.spmBusy then .gEnter else .gPoll }

/-- G_ENTER saves IE and clears it (R128). -/
def Obligations.EnterSavesAndMasks : Prop :=
  ∀ (i : Instr) (a : Addr) (s : State), addressOf i = some a → s.ph = .gEnter →
    exec i s = .next { s with sav := s.ie, ie := false, ph := .gRecheck }

/-- G_RECHECK goes on if the EEPROM is ready, and else restores IE and polls again (R129). -/
def Obligations.RecheckAccessesOrLeaves : Prop :=
  ∀ (i : Instr) (a : Addr) (s : State), addressOf i = some a → s.ph = .gRecheck →
    (s.eeBusy = false ∧ s.spmBusy = false → exec i s = .next { s with ph := .gAccess }) ∧
    (s.eeBusy = true ∨ s.spmBusy = true → exec i s = .next { s with ie := s.sav, ph := .gPoll })

/-- G_EXIT restores IE and responds: TMP for EE_READ, 0x00 otherwise (R130). -/
def Obligations.ExitRestoresAndResponds : Prop :=
  (∀ (a : Addr) (s : State), s.ph = .gExit → exec (.eeRead a) s =
    .next { s with ie := s.sav, rspValid := true, rspIll := false, rspData := s.tmp, ph := .idle }) ∧
  (∀ (a : Addr) (d : Byte) (s : State), s.ph = .gExit →
    exec (.eeWrite a d) s =
      .next { s with ie := s.sav, rspValid := true, rspIll := false, rspData := 0x00#8, ph := .idle } ∧
    exec (.eeUpdate a d) s =
      .next { s with ie := s.sav, rspValid := true, rspIll := false, rspData := 0x00#8, ph := .idle })

/-- The block holds IE at 0 for at most three micro-steps of SEQ per pass, and never in G_POLL, under every order of turns
without a reset (R132). Up to the fourth micro-step from G_ENTER on, IE is 0 in the three masked phases and its old value elsewhere;
and within these four the pass has ended with IE restored: in G_POLL after the second, or with the response after the
fourth. -/
def Obligations.MaskingIsBounded : Prop :=
  ∀ (k : Nat) (s t : State) (i : Instr) (a : Addr), Inv s → s.seqStopped = false → decode s.cmd = .ok i →
    addressOf i = some a → s.ph = .gEnter → NoEvent Event.isReset s → runSteps k s = .next t →
    (mainTurns k s ≤ 4 → t.ie = if t.ph = .gRecheck ∨ t.ph = .gAccess ∨ t.ph = .gExit then false else s.ie) ∧
    (mainTurns k s = 4 → ∃ j u, j ≤ k ∧ runSteps j s = .next u ∧ u.ie = s.ie ∧
      ((mainTurns j s = 2 ∧ u.ph = .gPoll) ∨ (mainTurns j s = 4 ∧ u.ph = .idle ∧ u.rspValid = true)))

/-- A command started inside the host's own section keeps IE at 0: no step but the issue of CS_EXIT 1 sets it (R133). -/
def Obligations.CallerMaskIsKept : Prop :=
  ∀ s t : State, s.keptMasked → s.presented ≠ some (.csExit true) → step s = .next t → t.keptMasked

/-- Well-nested sections restore IE, under every order of turns without a reset (R124), an endless one and one in which HOST
goes on presenting words included. The host's commands have ended when it has presented them all and PH = IDLE. -/
def Obligations.NestedSectionsRestoreIe : Prop :=
  ∀ (k : Nat) (s t : State) (cmds : List Instr) (later : List Word),
    s.ph = .idle → s.port = cmds.map encode ++ later → WellNested s.ie cmds → NoEvent Event.isReset s →
    runSteps k s = .next t → t.ph = .idle → presentations k s = cmds.length → t.ie = s.ie

/-- IE is 0 at every step strictly between the CS_ENTER and the CS_EXIT of a section whose body is well nested, under every
order of turns without a reset (R124): from when HOST has presented the first word until it has presented the last. -/
def Obligations.SectionIsMaskedThroughout : Prop :=
  ∀ (k : Nat) (s t : State) (body : List Instr) (later : List Word),
    s.ph = .idle → s.port = (atomic s.ie body).map encode ++ later → WellNested false body →
    NoEvent Event.isReset s → runSteps k s = .next t →
    0 < presentations k s → presentations k s < (atomic s.ie body).length → t.ie = false

/-- Only the main line and the resets write IE (10_state.md R21). -/
def Obligations.OnlyMainLineAndResetWriteIe : Prop :=
  ∀ s t : State, step s = .next t → s.turn ≠ .main → s.turn.isReset = false → t.ie = s.ie

/-! The EEPROM (42_eeprom.md, 20_memory.md). -/

/-- EE_IS_READY answers EE_READY and changes only the response (R140). -/
def Obligations.EeIsReadyAnswersReady : Prop :=
  encode .eeIsReady = 0x20000000#32 ∧ ∀ s : State, exec .eeIsReady s =
    .next { s with rspValid := true, rspIll := false,
                   rspData := if s.eeBusy = false ∧ s.spmBusy = false then 0x01#8 else 0x00#8, ph := .idle }

/-- G_VALIDATE: an address outside [0, SIZE) ORs CODE_EE_BAD_ADDR into ERR and answers the sentinel (EE_READ) or 0x00,
changing nothing else; a valid one moves to G_POLL (R141). -/
def Obligations.ValidateChecksAddress : Prop :=
  ∀ (a : Addr) (d : Byte) (s : State), s.ph = .idle ∨ s.ph = .gValidate →
    (s.cfg.size ≤ a.toNat →
      exec (.eeRead a) s = .next { s with err := s.err ||| s.cfg.codeEeBadAddr, rspValid := true, rspIll := false,
                                          rspData := s.cfg.eeSentinel, ph := .idle } ∧
      exec (.eeWrite a d) s = .next { s with err := s.err ||| s.cfg.codeEeBadAddr, rspValid := true, rspIll := false,
                                             rspData := 0x00#8, ph := .idle } ∧
      exec (.eeUpdate a d) s = .next { s with err := s.err ||| s.cfg.codeEeBadAddr, rspValid := true, rspIll := false,
                                              rspData := 0x00#8, ph := .idle }) ∧
    (a.toNat < s.cfg.size →
      exec (.eeRead a) s = .next { s with ph := .gPoll } ∧ exec (.eeWrite a d) s = .next { s with ph := .gPoll } ∧
      exec (.eeUpdate a d) s = .next { s with ph := .gPoll })

/-- G_ACCESS of EE_READ programs the address and reads the byte into EEDR and TMP (R142). Here and below, that the latch is
a bit of State is the model's choice (log entry 13). -/
def Obligations.EeReadAccessReadsByte : Prop :=
  ∀ (a : Addr) (s : State), s.ph = .gAccess → a.toNat < s.cfg.size → exec (.eeRead a) s =
    .next { s with eear := a, eedr := s.eeByte a.toNat, tmp := s.eeByte a.toNat, eeLatch := false, ph := .gExit }

/-- G_ACCESS of EE_WRITE on a ready EEPROM programs address and data and commits once; EE_MEM is not yet written (R145). -/
def Obligations.EeWriteAccessCommits : Prop :=
  ∀ (a : Addr) (d : Byte) (s : State), s.ph = .gAccess → s.eeBusy = false → s.spmBusy = false →
    exec (.eeWrite a d) s =
      .next { s with eear := a, eedr := d, eePendAddr := a, eePendData := d, eeBusy := true,
                     eeWrCount := s.eeWrCount + 1, eeLatch := false, ph := .gExit }

/-- G_ACCESS of EE_UPDATE reads the byte, and commits exactly once if it differs, not at all if it equals (R146). -/
def Obligations.EeUpdateAccessCommitsIfDifferent : Prop :=
  ∀ (a : Addr) (d : Byte) (s : State), s.ph = .gAccess → a.toNat < s.cfg.size →
    (s.eeByte a.toNat = d → exec (.eeUpdate a d) s =
      .next { s with eear := a, eedr := d, tmp := d, eeLatch := false, ph := .gExit }) ∧
    (s.eeByte a.toNat ≠ d → s.eeBusy = false → s.spmBusy = false → exec (.eeUpdate a d) s =
      .next { s with eear := a, eedr := d, tmp := s.eeByte a.toNat, eePendAddr := a, eePendData := d, eeBusy := true,
                     eeWrCount := s.eeWrCount + 1, eeLatch := false, ph := .gExit })

/-- EE_READ of a valid address on a ready EEPROM, only the main line stepping, answers the byte in six micro-steps with IE
and ERR as before; nothing but the sequencer, EEAR, EEDR and the response changes (R142, R147, R148). -/
def Obligations.EeReadRunsToResponse : Prop :=
  ∀ (a : Addr) (s : State) (rest : List Word), s.mainOnly → s.seqStopped = false → s.ph = .idle →
    s.port = encode (.eeRead a) :: rest → a.toNat < s.cfg.size → s.eeBusy = false → s.spmBusy = false →
    runSteps 6 s =
      .next { s with port := rest, cmd := encode (.eeRead a), sav := s.ie, tmp := s.eeByte a.toNat, eear := a,
                     eedr := s.eeByte a.toNat, eeLatch := false, rspValid := true, rspIll := false,
                     rspData := s.eeByte a.toNat }

/-- EE_WRITE of a valid address on a ready EEPROM, only the main line stepping, commits one write and answers 0x00 in six
micro-steps with IE and ERR as before, before the byte is in EE_MEM (R145, R147, R148). -/
def Obligations.EeWriteRunsToResponse : Prop :=
  ∀ (a : Addr) (d : Byte) (s : State) (rest : List Word), s.mainOnly → s.seqStopped = false → s.ph = .idle →
    s.port = encode (.eeWrite a d) :: rest → a.toNat < s.cfg.size → s.eeBusy = false → s.spmBusy = false →
    runSteps 6 s =
      .next { s with port := rest, cmd := encode (.eeWrite a d), sav := s.ie, eear := a, eedr := d, eePendAddr := a,
                     eePendData := d, eeBusy := true, eeWrCount := s.eeWrCount + 1, eeLatch := false,
                     rspValid := true, rspIll := false, rspData := 0x00#8 }

/-- EE_UPDATE of a valid address on a ready EEPROM, only the main line stepping, answers 0x00 in six micro-steps with IE and
ERR as before, having committed one write if the stored byte differs and none if it equals (R146, R147, R148). -/
def Obligations.EeUpdateRunsToResponse : Prop :=
  ∀ (a : Addr) (d : Byte) (s : State) (rest : List Word), s.mainOnly → s.seqStopped = false → s.ph = .idle →
    s.port = encode (.eeUpdate a d) :: rest → a.toNat < s.cfg.size → s.eeBusy = false → s.spmBusy = false →
    (s.eeByte a.toNat = d → runSteps 6 s =
      .next { s with port := rest, cmd := encode (.eeUpdate a d), sav := s.ie, tmp := d, eear := a, eedr := d,
                     eeLatch := false, rspValid := true, rspIll := false, rspData := 0x00#8 }) ∧
    (s.eeByte a.toNat ≠ d → runSteps 6 s =
      .next { s with port := rest, cmd := encode (.eeUpdate a d), sav := s.ie, tmp := s.eeByte a.toNat, eear := a,
                     eedr := d, eePendAddr := a, eePendData := d, eeBusy := true, eeWrCount := s.eeWrCount + 1,
                     eeLatch := false, rspValid := true, rspIll := false, rspData := 0x00#8 })

/-- The EEP step, if EE_BUSY = 1, clears EE_BUSY; if the pending address exists it stores the pending byte there and leaves
every other byte (R150). At an address outside the store, which only a handler can have programmed, it leaves every byte but
the one that it draws, if it draws one (the model's choice, log entry 11). If EE_BUSY = 0 it is not enabled, and only its turn
passes (the model's choice, log entry 5). How a turn is taken is the model's choice (log entry 4). -/
def Obligations.CompletionStoresPendingByte : Prop :=
  ∀ (s : State) (stray : Option (Nat × Byte)), s.turn = .eep stray →
    (s.eeBusy = true → ∃ m : Memory, step s = .next { s.taken with eeMem := m, eeBusy := false } ∧
      (s.eePendAddr.toNat < s.cfg.size →
        ∀ n, { s with eeMem := m }.eeByte n = if n = s.eePendAddr.toNat then s.eePendData else s.eeByte n) ∧
      (s.cfg.size ≤ s.eePendAddr.toNat →
        (stray = none → m = s.eeMem) ∧
        (∀ x v, stray = some (x, v) →
          ∀ n, { s with eeMem := m }.eeByte n = if n = x ∧ x < s.cfg.size then v else s.eeByte n))) ∧
    (s.eeBusy = false → step s = .next s.taken)

/-- EE_MEM is written only by the completion step and by a reset: no command and no handler writes it (10_state.md R28,
20_memory.md R64). -/
def Obligations.OnlyCompletionAndResetWriteEeMem : Prop :=
  ∀ s t : State, step s = .next t → s.turn.isEep = false → s.turn.isReset = false → t.eeMem = s.eeMem

/-- Write then read of a valid address answers the byte written, with ERR as before, under every order of turns without a
reset and an interrupt handler: whenever both commands have responded and HOST has presented no third word (20_memory.md
R64). -/
def Obligations.WriteThenReadReturnsByte : Prop :=
  ∀ (k : Nat) (s t : State) (a : Addr) (v : Byte) (later : List Word), Inv s → s.ph = .idle →
    s.port = encode (.eeWrite a v) :: encode (.eeRead a) :: later → a.toNat < s.cfg.size →
    NoEvent (fun e => e.isReset || e.isIrq) s → runSteps k s = .next t → t.ph = .idle →
    presentations k s = 2 →
    t.rspValid = true ∧ t.rspIll = false ∧ t.rspData = v ∧ t.eeByte a.toNat = v ∧ t.err = s.err

/-! The invariant of the block. -/

/-- The state after reset meets the invariant. -/
def Obligations.ResetMeetsInvariant : Prop := Inv State.reset

/-- Every step keeps the invariant. -/
def Obligations.StepKeepsInvariant : Prop := ∀ s t : State, Inv s → step s = .next t → Inv t

/-- Whenever G_ACCESS is about to execute, in any run from a state that meets the invariant, EE_READY is true and the IRQ
agent is not enabled (20_memory.md R63). -/
def Obligations.AccessFindsReadyUnmolested : Prop :=
  ∀ (k : Nat) (s t : State), Inv s → runSteps k s = .next t → t.ph = .gAccess →
    t.eeBusy = false ∧ t.spmBusy = false ∧ t.irqEnabled = false

/-- The block's own commits always find EE_READY true: no run from a state that meets the invariant adds
EE_COMMIT_WHILE_BUSY to FAULTS (R152, which the spec infers from R63). -/
def Obligations.CommitNeverFindsBusy : Prop :=
  ∀ (k : Nat) (s t : State), Inv s → runSteps k s = .next t →
    (.eeCommitWhileBusy ∈ t.faults ↔ .eeCommitWhileBusy ∈ s.faults)

/-- The two faults that a run can reach: exactly when a step adds each to FAULTS, and that no step, a reset included, takes
one out (60_exceptions.md R210, 10_state.md R38). -/
def Obligations.FaultsExactlyWhen : Prop :=
  ∀ s t : State, Inv s → step s = .next t →
    (.txCollision ∈ t.faults ↔ .txCollision ∈ s.faults ∨ (s.seqNow ∧ s.ph = .tWrite ∧ s.udre = false)) ∧
    (.rxEmpty ∈ t.faults ↔ .rxEmpty ∈ s.faults ∨ (s.seqNow ∧ (s.ph = .rInspect ∨ s.ph = .rRead) ∧ s.rxQ = []))

/-- In a state that meets the invariant every step, of every agent, with every draw, has a next state: the model refuses
nothing there, and a fault is recorded and not an outcome of the step (the model's choice, log entries 5, 9, 10 and 11). So a
run of any length follows any interleaving (10_state.md R40): the turns are those of `sched` in order as far as it goes; then
those of `again` in order, over and over; and where `again` is empty those of the free order, which nothing constrains, for
ever. Taking a turn changes nothing of the block. The lists and the free order are the model's choice (log entry 4). -/
def Obligations.EveryStepHasNextState : Prop :=
  (∀ s : State, s.taken = { s with sched := s.taken.sched, freeTurns := s.taken.freeTurns }) ∧
  ∀ s : State, Inv s →
    (∃ t, step s = .next t) ∧
    ∀ n, ∃ t, runSteps n s = .next t ∧ (∀ e, s.sched[n]? = some e → t.turn = e) ∧
      ∀ m, n = s.sched.length + m →
        (∀ e, s.again[m % s.again.length]? = some e → t.turn = e) ∧
        (s.again = [] → t.turn = Config.eventAt (s.freeTurns + m))

/-- Where SEQ's micro-step raises a fault, the step adds the reason to FAULTS, leaves PH, stops SEQ, and (of the two faults
that a run can reach) changes nothing else; no longer run has a final state; and until a reset SEQ has no further step,
whatever the other agents do, and no word leaves the port (60_exceptions.md R210, 10_state.md R38). How the turn is taken off,
and that HOST may add words to the port, is the model's choice (log entries 4, 6 and 9). -/
def Obligations.FaultedRunHasNoFinalState : Prop :=
  ∀ (s : State) (i : Instr) (r : Fault), s.seqNow → decode s.cmd = .ok i → hasPhase i s.ph = true →
    exec i s.taken = .fault r →
    (∃ u, step s = .next u ∧ (∀ x, x ∈ u.faults ↔ x = r ∨ x ∈ s.faults) ∧ u.ph = s.ph ∧ u.seqStopped = true ∧
      (r ≠ .eeCommitWhileBusy → u = { s.taken with faults := u.faults, seqStopped := true })) ∧
    (∀ k, finalState (k + 1) s = none) ∧
    (∀ (k : Nat) (t : State), NoEvent Event.isReset s → runSteps (k + 1) s = .next t →
      t.seqStopped = true ∧ t.ph = s.ph ∧ t.cmd = s.cmd ∧ t.sav = s.sav ∧ t.cur = s.cur ∧ t.nxt = s.nxt ∧ t.ie = s.ie ∧
      t.rspValid = s.rspValid ∧ ∃ extra, t.port = s.port ++ extra)

/-- No step writes the parameters (10_state.md R39). -/
def Obligations.ParametersAreFixed : Prop := ∀ s t : State, step s = .next t → t.cfg = s.cfg

/-! The USART (43_usart.md). -/

/-- US_INIT: A_ENTER masks, A_ACCESS clears the queued error bits and programs the configuration, A_EXIT restores IE and
responds (R171, 41_synchronizer.md R135). -/
def Obligations.InitPhasesConfigure : Prop :=
  encode .usInit = 0x30000000#32 ∧ ∀ s : State,
    (s.ph = .idle ∨ s.ph = .aEnter → exec .usInit s = .next { s with sav := s.ie, ie := false, ph := .aAccess }) ∧
    (s.ph = .aAccess → exec .usInit s =
      .next { s with rxQ := s.rxQ.map fun e => { e with upe := false, dor := false, fe := false }, fmt := .f8n1,
                     baud := s.cfg.baudDiv, txen := s.cfg.txEn, rxen := s.cfg.rxEn, configured := true,
                     ph := .aExit }) ∧
    (s.ph = .aExit → exec .usInit s =
      .next { s with ie := s.sav, rspValid := true, rspIll := false, rspData := 0x00#8, ph := .idle })

/-- Calling US_INIT twice leaves the transceiver as calling it once does, with only the main line stepping (R172). -/
def Obligations.InitIsIdempotent : Prop :=
  ∀ (s : State) (rest : List Word), s.mainOnly → s.seqStopped = false → s.ph = .idle →
    s.port = encode .usInit :: encode .usInit :: rest →
    ∃ t u : State, runSteps 3 s = .next t ∧ runSteps 6 s = .next u ∧ t.configured = true ∧ t.ie = s.ie ∧
      u = { t with port := rest }

/-- The three status queries answer UDRE, TXC and RXC and change only the response (R173, R174, R175). -/
def Obligations.StatusQueriesAnswerBits : Prop :=
  (encode .usTxIsReady = 0x31000000#32 ∧ encode .usTxIsTransmitted = 0x32000000#32 ∧
    encode .usRxIsReady = 0x33000000#32) ∧
  ∀ s : State,
    exec .usTxIsReady s = .next { s with rspValid := true, rspIll := false,
                                         rspData := if s.udre then 0x01#8 else 0x00#8, ph := .idle } ∧
    exec .usTxIsTransmitted s = .next { s with rspValid := true, rspIll := false,
                                               rspData := if s.txc then 0x01#8 else 0x00#8, ph := .idle } ∧
    exec .usRxIsReady s = .next { s with rspValid := true, rspIll := false,
                                         rspData := if s.rxQ = [] then 0x00#8 else 0x01#8, ph := .idle }

/-- T_START, T_POLL and T_WRITE of US_TX_BYTE (R176, R177, R178): a line-feed is preceded by a carriage-return where
CFG_CRLF = 1; T_WRITE moves CUR into the data register, and then sends NXT or responds; on a full register it faults. -/
def Obligations.TxBytePhases : Prop :=
  ∀ (d : Byte) (s : State), encode (.usTxByte d) = 0x34000000#32 ||| d.setWidth 32 ∧
    (s.ph = .idle ∨ s.ph = .tStart →
      exec (.usTxByte d) s =
        if s.cfg.crlf = true ∧ d = s.cfg.charLf then
          .next { s with cur := s.cfg.charCr, nxt := some d, ph := .tPoll }
        else .next { s with cur := d, nxt := none, ph := .tPoll }) ∧
    (s.ph = .tPoll → exec (.usTxByte d) s = .next { s with ph := if s.udre then .tWrite else .tPoll }) ∧
    (s.ph = .tWrite →
      (s.udre = false → exec (.usTxByte d) s = .fault .txCollision) ∧
      (∀ b, s.udre = true → s.nxt = some b → exec (.usTxByte d) s =
        .next { s with txdr := s.cur, udre := false, txc := false, cur := b, nxt := none, ph := .tPoll }) ∧
      (s.udre = true → s.nxt = none → exec (.usTxByte d) s =
        .next { s with txdr := s.cur, udre := false, txc := false, rspValid := true, rspIll := false,
                       rspData := 0x00#8, ph := .idle }))

/-- US_TX_BYTE of a line-feed with CFG_CRLF = 1 puts the carriage-return and then the line-feed on the wire, with the
transmitter's steps where 95_test_vectors.md P3 has them, and TXC is set at the end (R176 to R178, R190, R191). -/
def Obligations.LineFeedSendsCrThenLf : Prop :=
  ∀ (s : State) (rest : List Word), s.seqStopped = false → s.ph = .idle → s.port = encode (.usTxByte s.cfg.charLf) :: rest →
    s.cfg.crlf = true → s.txen = true → s.udre = true → s.shiftBusy = false →
    s.sched = [.main, .main, .main, .txHandOver, .main, .main, .txComplete, .txHandOver, .txComplete] →
    ∃ t, runSteps 9 s = .next t ∧ t.wireTx = s.wireTx ++ [s.cfg.charCr, s.cfg.charLf] ∧ t.udre = true ∧ t.txc = true ∧
      t.ph = .idle ∧ t.rspValid = true ∧ t.port = rest ∧ t.err = s.err ∧ t.ie = s.ie

/-- R_POLL, R_INSPECT and R_READ of US_RX_BYTE (R180, R181, R182): the head's codes are OR-ed into ERR in one OR before the
byte is read; the read pops the entry and answers its data; an empty queue faults. -/
def Obligations.RxBytePhases : Prop :=
  encode .usRxByte = 0x35000000#32 ∧ ∀ s : State,
    (s.ph = .idle ∨ s.ph = .rPoll → exec .usRxByte s = .next { s with ph := if s.rxQ = [] then .rPoll else .rInspect }) ∧
    (s.ph = .rInspect ∨ s.ph = .rRead → s.rxQ = [] → exec .usRxByte s = .fault .rxEmpty) ∧
    (∀ h q, s.ph = .rInspect → s.rxQ = h :: q → exec .usRxByte s =
      .next { s with err := s.err ||| ((if h.upe then s.cfg.codeUsParity else 0#8) |||
                                       (if h.dor then s.cfg.codeUsOverrun else 0#8) |||
                                       (if h.fe then s.cfg.codeUsFrame else 0#8)), ph := .rRead }) ∧
    (∀ h q, s.ph = .rRead → s.rxQ = h :: q → exec .usRxByte s =
      .next { s with rxQ := q, rspValid := true, rspIll := false, rspData := h.data, ph := .idle })

/-- US_RX_BYTE on a non-empty queue, only the main line stepping, answers the head's byte whatever its error bits, and
records them in ERR, in three micro-steps (R180 to R182). -/
def Obligations.RxByteDeliversDespiteErrors : Prop :=
  ∀ (s : State) (h : RxEntry) (q : List RxEntry) (rest : List Word), s.mainOnly → s.seqStopped = false → s.ph = .idle →
    s.port = encode .usRxByte :: rest → s.rxQ = h :: q →
    runSteps 3 s =
      .next { s with port := rest, cmd := encode .usRxByte, rxQ := q, err := s.err ||| rxCodes s.cfg h,
                     rspValid := true, rspIll := false, rspData := h.data }

/-- Each of the four toggles writes its own bit and nothing else but the response (R184 to R188). -/
def Obligations.TogglesWriteTheirBit : Prop :=
  (encode .usTxieOn = 0x36000000#32 ∧ encode .usTxieOff = 0x37000000#32 ∧ encode .usRxieOn = 0x38000000#32 ∧
    encode .usRxieOff = 0x39000000#32) ∧
  ∀ s : State,
    exec .usTxieOn s = .next { s with txie := true, rspValid := true, rspIll := false, rspData := 0x00#8, ph := .idle } ∧
    exec .usTxieOff s = .next { s with txie := false, rspValid := true, rspIll := false, rspData := 0x00#8, ph := .idle } ∧
    exec .usRxieOn s = .next { s with rxie := true, rspValid := true, rspIll := false, rspData := 0x00#8, ph := .idle } ∧
    exec .usRxieOff s = .next { s with rxie := false, rspValid := true, rspIll := false, rspData := 0x00#8, ph := .idle }

/-- The two steps of UTX where they are enabled (R190, R191), whichever order gives them the turn; where one is not enabled,
only its turn passes (the model's choice, log entries 4 and 5). -/
def Obligations.TransmitterSteps : Prop :=
  ∀ s : State,
    (s.turn = .txHandOver → step s =
      if s.udre = false ∧ s.txen = true ∧ s.shiftBusy = false then
        .next { s.taken with shiftByte := s.txdr, shiftBusy := true, udre := true }
      else .next s.taken) ∧
    (s.turn = .txComplete → step s =
      if s.shiftBusy = true then
        .next { s.taken with wireTx := s.wireTx ++ [s.shiftByte], shiftBusy := false,
                             txc := if s.udre then true else s.txc }
      else .next s.taken)

/-- The arrival step of URX: appended to a queue with room, lost into a full one whose last entry is marked as overrun, and
nothing but the turn where the receiver is disabled (R192; the turn is the model's choice, log entries 4 and 5). -/
def Obligations.ReceiverArrival : Prop :=
  ∀ (s : State) (x : Byte) (p o f : Bool), s.turn = .rxArrive x p o f →
    (s.rxen = true → s.rxQ.length < s.cfg.rxqDepth →
      step s = .next { s.taken with rxQ := s.rxQ ++ [⟨x, p, o, f⟩] }) ∧
    (∀ q e, s.rxen = true → s.cfg.rxqDepth ≤ s.rxQ.length → s.rxQ = q ++ [e] →
      step s = .next { s.taken with rxQ := q ++ [{ e with dor := true }] }) ∧
    (s.rxen = false → step s = .next s.taken)

/-! Interrupts and the environment (60_exceptions.md, 10_state.md). -/

/-- While IE = 0, or with no request pending, the IRQ agent has no step (R214, R61): only its turn passes (the model's choice,
log entries 4 and 5). -/
def Obligations.MaskedInterruptHasNoStep : Prop :=
  ∀ (s : State) (e : Interference), s.turn = .irq e →
    s.ie = false ∨ ((s.txie = false ∨ s.udre = false) ∧ (s.rxie = false ∨ s.rxQ = []) ∧ s.extIrq = false) →
    step s = .next s.taken

/-- One handler execution, whole, for every draw (R214, R215). Where IRQ is enabled it ORs its mask into ERR; starts its own
EEPROM write on a ready EEPROM and none on a busy one; may start self-programming and leave EEAR and EEDR at any value;
transmits its byte whatever UDRE is; consumes the head entry of RX_Q; writes the interrupt enables and the configuration; may
remove the cause of EXT_IRQ; each as drawn, and it changes nothing else: not IE, the sequencer, the response, EE_MEM or what
the transmitter is shifting out. Where IRQ is not enabled only its turn passes. One record is one handler execution, and the
turn passes, by the model's choice (log entries 4, 5 and 14). -/
def Obligations.InterferenceFrame : Prop :=
  ∀ (s : State) (e : Interference) (own : Option (Addr × Byte)), s.turn = .irq e →
    own = (if s.eeBusy = false ∧ s.spmBusy = false then e.eeWrite else none) →
    step s =
      if s.ie = true ∧ ((s.txie = true ∧ s.udre = true) ∨ (s.rxie = true ∧ s.rxQ ≠ []) ∨ s.extIrq = true) then
        .next
          { s.taken with
            err := s.err ||| e.errMask
            eear := e.eear.getD ((own.map Prod.fst).getD s.eear)
            eedr := e.eedr.getD ((own.map Prod.snd).getD s.eedr)
            eePendAddr := (own.map Prod.fst).getD s.eePendAddr
            eePendData := (own.map Prod.snd).getD s.eePendData
            eeBusy := if own.isSome then true else s.eeBusy
            eeWrCount := if own.isSome then s.eeWrCount + 1 else s.eeWrCount
            spmBusy := if e.startSpm then true else s.spmBusy
            txdr := e.transmit.getD s.txdr
            udre := if e.transmit.isSome then false else s.udre
            txc := if e.transmit.isSome then false else s.txc
            rxQ := if e.consume then s.rxQ.tail else s.rxQ
            txie := e.txie.getD s.txie
            rxie := e.rxie.getD s.rxie
            txen := e.txen.getD s.txen
            rxen := e.rxen.getD s.rxen
            fmt := e.fmt.getD s.fmt
            baud := e.baud.getD s.baud
            configured := e.configured.getD s.configured
            extIrq := if e.dropExt then false else s.extIrq }
      else .next s.taken

/-- The environment sets EXT_IRQ at any step, drops SPM_BUSY at any step, and raises it only when PH = IDLE (R42); elsewhere
only its turn passes (the model's choice, log entries 4 and 5). HOST settles on a word of its program at any step, which changes
nothing of the block (the model's choice, log entry 6). -/
def Obligations.EnvironmentInputs : Prop :=
  ∀ (s : State) (b : Bool),
    (s.turn = .setExtIrq b → step s = .next { s.taken with extIrq := b }) ∧
    (s.turn = .spmEnd → step s = .next { s.taken with spmBusy := false }) ∧
    (s.turn = .spmStart → step s =
      if s.ph = .idle then .next { s.taken with spmBusy := true } else .next s.taken) ∧
    (∀ w, s.turn = .hostWord w → step s = .next { s.taken with port := s.port ++ [w] })

/-! Reset (70_reset_and_hazards.md). -/

/-- Both resets abort the command in flight without a response and write the values of R234, each open value being that of
the draw; ERR and EE_WR_COUNT go to CODE_NONE and 0 on a cold reset and stay on a warm one; EE_MEM stays if no write is in
flight (R231 to R234). SEQ is no longer stopped by a fault (60_exceptions.md R210). The latch, and that the port and
the order of turns stay but for the turn taken, are the model's choice (log entries 4, 13 and 17). -/
def Obligations.ResetsWriteResetValues : Prop :=
  ∀ (s : State) (d : ResetDraw) (b : Bool),
    s.turn = (if b then .coldReset d else .warmReset d) →
    ∃ m : Memory, (s.eeBusy = false → m = s.eeMem) ∧ step s = .next
      { s.taken with ie := false, ph := .idle, rspValid := false, rspIll := false, rspData := 0x00#8,
                     eeBusy := false, spmBusy := false, configured := false, txen := false, rxen := false, txie := false,
                     rxie := false, udre := true, shiftBusy := false, txc := false, wireTx := [], rxQ := [],
                     cmd := d.cmd, sav := d.sav, tmp := d.tmp, cur := d.cur, nxt := d.nxt, eear := d.eear, eedr := d.eedr,
                     eePendAddr := d.eePendAddr, eePendData := d.eePendData, fmt := d.fmt, baud := d.baud, txdr := d.txdr,
                     shiftByte := d.shiftByte, extIrq := d.extIrq, eeLatch := false, seqStopped := false, eeMem := m,
                     err := if b then s.cfg.codeNone else s.err, eeWrCount := if b then 0 else s.eeWrCount }

/-- A reset leaves the byte of a write in flight at the draw and every other byte of EE_MEM as it was (R236). What it does to
a write in flight at an address that does not exist is the model's choice (log entry 11) and is not stated. How a
turn is taken is the model's choice (log entry 4). -/
def Obligations.ResetTearsWriteInFlight : Prop :=
  ∀ (s t : State) (d : ResetDraw), s.turn = .coldReset d ∨ s.turn = .warmReset d →
    step s = .next t →
    (s.eeBusy = false → t.eeMem = s.eeMem) ∧
    (s.eeBusy = true → s.eePendAddr.toNat < s.cfg.size →
      ∀ n, t.eeByte n = if n = s.eePendAddr.toNat then d.cell else s.eeByte n)

/-- The values the spec gives for the state after a cold reset (10_state.md section 7). -/
def Obligations.ResetStateValues : Prop :=
  State.reset.ie = false ∧ State.reset.err = 0x00#8 ∧ State.reset.ph = .idle ∧ State.reset.rspValid = false ∧
  State.reset.rspIll = false ∧ State.reset.rspData = 0x00#8 ∧ State.reset.eeBusy = false ∧
  State.reset.spmBusy = false ∧ State.reset.eeWrCount = 0 ∧ State.reset.configured = false ∧
  State.reset.txen = false ∧ State.reset.rxen = false ∧ State.reset.txie = false ∧ State.reset.rxie = false ∧
  State.reset.udre = true ∧ State.reset.shiftBusy = false ∧ State.reset.txc = false ∧ State.reset.wireTx = [] ∧
  State.reset.rxQ = [] ∧ State.reset.faults = []
end

