-- ==== Sys2Proof/Laws/Decode.lean ====
section
/-! SUPPORT. The fields and masked bits of the words that `encode` builds (spec/30_encoding.md R70, R74), for any opcode. -/

namespace Sys2Proof

/-- The word with OPC `o` and every operand bit 0: the match column of the opcode map. -/
def patternOf (o : BitVec 8) : Word := o.setWidth 32 <<< 24

@[simp] theorem opcField_patternOf (o : BitVec 8) : opcField (patternOf o) = o := by
  ext i hi
  simp [opcField, patternOf]
  interval_cases i <;> simp

@[simp] theorem opcField_wordD (o : BitVec 8) (d : Byte) : opcField (wordD (patternOf o) d) = o := by
  ext i hi
  simp [opcField, wordD, patternOf]
  interval_cases i <;> simp

@[simp] theorem dataField_wordD (o : BitVec 8) (d : Byte) : dataField (wordD (patternOf o) d) = d := by
  ext i hi
  simp [dataField, wordD, patternOf]
  interval_cases i <;> simp

@[simp] theorem mask_wordD (o : BitVec 8) (d : Byte) : wordD (patternOf o) d &&& Format.fd.mask = patternOf o := by
  ext i hi
  simp [wordD, patternOf, Format.mask]
  interval_cases i <;> simp

/-- The token is bit 0 of DATA (30_encoding.md R73). -/
theorem wordT_eq_wordD (p : Word) (t : Bool) : wordT p t = wordD p (if t then 1#8 else 0#8) := by
  cases t <;> rfl

@[simp] theorem wordD_zero (p : Word) : wordD p 0#8 = p := BitVec.or_zero

theorem ft_mask_wordD (o : BitVec 8) (d : Byte) :
    wordD (patternOf o) d &&& Format.ft.mask = wordD (patternOf o) (d &&& 0xFE#8) := by
  ext i hi
  simp [wordD, patternOf, Format.mask]
  interval_cases i <;> simp

@[simp] theorem opcField_wordT (o : BitVec 8) (t : Bool) : opcField (wordT (patternOf o) t) = o := by
  rw [wordT_eq_wordD, opcField_wordD]

@[simp] theorem tokenField_wordT (o : BitVec 8) (t : Bool) : tokenField (wordT (patternOf o) t) = t := by
  cases t <;> simp [tokenField, wordT, patternOf]

@[simp] theorem mask_wordT (o : BitVec 8) (t : Bool) : wordT (patternOf o) t &&& Format.ft.mask = patternOf o := by
  rw [wordT_eq_wordD, ft_mask_wordD]
  cases t <;> exact wordD_zero _

@[simp] theorem opcField_wordA (o : BitVec 8) (a : Addr) : opcField (wordA (patternOf o) a) = o := by
  ext i hi
  simp [opcField, wordA, patternOf]
  interval_cases i <;> simp

@[simp] theorem addrField_wordA (o : BitVec 8) (a : Addr) : addrField (wordA (patternOf o) a) = a := by
  ext i hi
  simp [addrField, wordA, patternOf]
  interval_cases i <;> simp

@[simp] theorem mask_wordA (o : BitVec 8) (a : Addr) : wordA (patternOf o) a &&& Format.fa.mask = patternOf o := by
  ext i hi
  simp [wordA, patternOf, Format.mask]
  interval_cases i <;> simp

@[simp] theorem opcField_wordAD (o : BitVec 8) (a : Addr) (d : Byte) : opcField (wordAD (patternOf o) a d) = o := by
  ext i hi
  simp [opcField, wordAD, patternOf]
  interval_cases i <;> simp

@[simp] theorem addrField_wordAD (o : BitVec 8) (a : Addr) (d : Byte) : addrField (wordAD (patternOf o) a d) = a := by
  ext i hi
  simp [addrField, wordAD, patternOf]
  interval_cases i <;> simp

@[simp] theorem dataField_wordAD (o : BitVec 8) (a : Addr) (d : Byte) : dataField (wordAD (patternOf o) a d) = d := by
  ext i hi
  simp [dataField, wordAD, patternOf]
  interval_cases i <;> simp

@[simp] theorem mask_wordAD (o : BitVec 8) (a : Addr) (d : Byte) :
    wordAD (patternOf o) a d &&& Format.fad.mask = patternOf o := by
  ext i hi
  simp [wordAD, patternOf, Format.mask]
  interval_cases i <;> simp

/-- A word is made of its three fields (30_encoding.md R70). -/
theorem word_of_fields (w : Word) : wordAD (patternOf (opcField w)) (addrField w) (dataField w) = w := by
  ext i hi
  simp [wordAD, patternOf, opcField, addrField, dataField]
  interval_cases i <;> simp [BitVec.getLsbD_eq_getElem]

/-- What an answer of `inFormat` says: no reserved bit is 1. -/
theorem inFormat_ok {f : Format} {p w : Word} {i j : Instr} (h : inFormat f p w i = .ok j) :
    w &&& f.mask = p ∧ i = j := by
  unfold inFormat at h
  split at h
  · next hw => exact ⟨hw, by simpa using h⟩
  · cases h

theorem inFormat_of_mask {f : Format} {p w : Word} (i : Instr) (h : w &&& f.mask = p) : inFormat f p w i = .ok i :=
  if_pos h

end Sys2Proof
end

