-- ==== Sys2Proof/Laws/State.lean ====
section
/-! SUPPORT. One lemma per field per named update of the state, so that no proof unfolds a record update. -/

namespace Sys2Proof.Machine

variable (s : State)

/-! The fields after `State.toPhase`. -/

@[simp] theorem State.toPhase_cfg (p : Phase) : (s.toPhase p).cfg = s.cfg := rfl
@[simp] theorem State.toPhase_ie (p : Phase) : (s.toPhase p).ie = s.ie := rfl
@[simp] theorem State.toPhase_err (p : Phase) : (s.toPhase p).err = s.err := rfl
@[simp] theorem State.toPhase_ph (p : Phase) : (s.toPhase p).ph = p := rfl
@[simp] theorem State.toPhase_cmd (p : Phase) : (s.toPhase p).cmd = s.cmd := rfl
@[simp] theorem State.toPhase_sav (p : Phase) : (s.toPhase p).sav = s.sav := rfl
@[simp] theorem State.toPhase_tmp (p : Phase) : (s.toPhase p).tmp = s.tmp := rfl
@[simp] theorem State.toPhase_cur (p : Phase) : (s.toPhase p).cur = s.cur := rfl
@[simp] theorem State.toPhase_nxt (p : Phase) : (s.toPhase p).nxt = s.nxt := rfl
@[simp] theorem State.toPhase_rspValid (p : Phase) : (s.toPhase p).rspValid = s.rspValid := rfl
@[simp] theorem State.toPhase_rspIll (p : Phase) : (s.toPhase p).rspIll = s.rspIll := rfl
@[simp] theorem State.toPhase_rspData (p : Phase) : (s.toPhase p).rspData = s.rspData := rfl
@[simp] theorem State.toPhase_eeMem (p : Phase) : (s.toPhase p).eeMem = s.eeMem := rfl
@[simp] theorem State.toPhase_eear (p : Phase) : (s.toPhase p).eear = s.eear := rfl
@[simp] theorem State.toPhase_eedr (p : Phase) : (s.toPhase p).eedr = s.eedr := rfl
@[simp] theorem State.toPhase_eeLatch (p : Phase) : (s.toPhase p).eeLatch = s.eeLatch := rfl
@[simp] theorem State.toPhase_eeBusy (p : Phase) : (s.toPhase p).eeBusy = s.eeBusy := rfl
@[simp] theorem State.toPhase_eePendAddr (p : Phase) : (s.toPhase p).eePendAddr = s.eePendAddr := rfl
@[simp] theorem State.toPhase_eePendData (p : Phase) : (s.toPhase p).eePendData = s.eePendData := rfl
@[simp] theorem State.toPhase_spmBusy (p : Phase) : (s.toPhase p).spmBusy = s.spmBusy := rfl
@[simp] theorem State.toPhase_eeWrCount (p : Phase) : (s.toPhase p).eeWrCount = s.eeWrCount := rfl
@[simp] theorem State.toPhase_configured (p : Phase) : (s.toPhase p).configured = s.configured := rfl
@[simp] theorem State.toPhase_txen (p : Phase) : (s.toPhase p).txen = s.txen := rfl
@[simp] theorem State.toPhase_rxen (p : Phase) : (s.toPhase p).rxen = s.rxen := rfl
@[simp] theorem State.toPhase_fmt (p : Phase) : (s.toPhase p).fmt = s.fmt := rfl
@[simp] theorem State.toPhase_baud (p : Phase) : (s.toPhase p).baud = s.baud := rfl
@[simp] theorem State.toPhase_txie (p : Phase) : (s.toPhase p).txie = s.txie := rfl
@[simp] theorem State.toPhase_rxie (p : Phase) : (s.toPhase p).rxie = s.rxie := rfl
@[simp] theorem State.toPhase_udre (p : Phase) : (s.toPhase p).udre = s.udre := rfl
@[simp] theorem State.toPhase_txdr (p : Phase) : (s.toPhase p).txdr = s.txdr := rfl
@[simp] theorem State.toPhase_shiftBusy (p : Phase) : (s.toPhase p).shiftBusy = s.shiftBusy := rfl
@[simp] theorem State.toPhase_shiftByte (p : Phase) : (s.toPhase p).shiftByte = s.shiftByte := rfl
@[simp] theorem State.toPhase_txc (p : Phase) : (s.toPhase p).txc = s.txc := rfl
@[simp] theorem State.toPhase_wireTx (p : Phase) : (s.toPhase p).wireTx = s.wireTx := rfl
@[simp] theorem State.toPhase_rxQ (p : Phase) : (s.toPhase p).rxQ = s.rxQ := rfl
@[simp] theorem State.toPhase_extIrq (p : Phase) : (s.toPhase p).extIrq = s.extIrq := rfl
@[simp] theorem State.toPhase_faults (p : Phase) : (s.toPhase p).faults = s.faults := rfl
@[simp] theorem State.toPhase_seqStopped (p : Phase) : (s.toPhase p).seqStopped = s.seqStopped := rfl
@[simp] theorem State.toPhase_port (p : Phase) : (s.toPhase p).port = s.port := rfl
@[simp] theorem State.toPhase_sched (p : Phase) : (s.toPhase p).sched = s.sched := rfl
@[simp] theorem State.toPhase_again (p : Phase) : (s.toPhase p).again = s.again := rfl
@[simp] theorem State.toPhase_freeTurns (p : Phase) : (s.toPhase p).freeTurns = s.freeTurns := rfl

/-! The fields after `State.respond`. -/

@[simp] theorem State.respond_cfg (v : Byte) : (s.respond v).cfg = s.cfg := rfl
@[simp] theorem State.respond_ie (v : Byte) : (s.respond v).ie = s.ie := rfl
@[simp] theorem State.respond_err (v : Byte) : (s.respond v).err = s.err := rfl
@[simp] theorem State.respond_ph (v : Byte) : (s.respond v).ph = .idle := rfl
@[simp] theorem State.respond_cmd (v : Byte) : (s.respond v).cmd = s.cmd := rfl
@[simp] theorem State.respond_sav (v : Byte) : (s.respond v).sav = s.sav := rfl
@[simp] theorem State.respond_tmp (v : Byte) : (s.respond v).tmp = s.tmp := rfl
@[simp] theorem State.respond_cur (v : Byte) : (s.respond v).cur = s.cur := rfl
@[simp] theorem State.respond_nxt (v : Byte) : (s.respond v).nxt = s.nxt := rfl
@[simp] theorem State.respond_rspValid (v : Byte) : (s.respond v).rspValid = true := rfl
@[simp] theorem State.respond_rspIll (v : Byte) : (s.respond v).rspIll = false := rfl
@[simp] theorem State.respond_rspData (v : Byte) : (s.respond v).rspData = v := rfl
@[simp] theorem State.respond_eeMem (v : Byte) : (s.respond v).eeMem = s.eeMem := rfl
@[simp] theorem State.respond_eear (v : Byte) : (s.respond v).eear = s.eear := rfl
@[simp] theorem State.respond_eedr (v : Byte) : (s.respond v).eedr = s.eedr := rfl
@[simp] theorem State.respond_eeLatch (v : Byte) : (s.respond v).eeLatch = s.eeLatch := rfl
@[simp] theorem State.respond_eeBusy (v : Byte) : (s.respond v).eeBusy = s.eeBusy := rfl
@[simp] theorem State.respond_eePendAddr (v : Byte) : (s.respond v).eePendAddr = s.eePendAddr := rfl
@[simp] theorem State.respond_eePendData (v : Byte) : (s.respond v).eePendData = s.eePendData := rfl
@[simp] theorem State.respond_spmBusy (v : Byte) : (s.respond v).spmBusy = s.spmBusy := rfl
@[simp] theorem State.respond_eeWrCount (v : Byte) : (s.respond v).eeWrCount = s.eeWrCount := rfl
@[simp] theorem State.respond_configured (v : Byte) : (s.respond v).configured = s.configured := rfl
@[simp] theorem State.respond_txen (v : Byte) : (s.respond v).txen = s.txen := rfl
@[simp] theorem State.respond_rxen (v : Byte) : (s.respond v).rxen = s.rxen := rfl
@[simp] theorem State.respond_fmt (v : Byte) : (s.respond v).fmt = s.fmt := rfl
@[simp] theorem State.respond_baud (v : Byte) : (s.respond v).baud = s.baud := rfl
@[simp] theorem State.respond_txie (v : Byte) : (s.respond v).txie = s.txie := rfl
@[simp] theorem State.respond_rxie (v : Byte) : (s.respond v).rxie = s.rxie := rfl
@[simp] theorem State.respond_udre (v : Byte) : (s.respond v).udre = s.udre := rfl
@[simp] theorem State.respond_txdr (v : Byte) : (s.respond v).txdr = s.txdr := rfl
@[simp] theorem State.respond_shiftBusy (v : Byte) : (s.respond v).shiftBusy = s.shiftBusy := rfl
@[simp] theorem State.respond_shiftByte (v : Byte) : (s.respond v).shiftByte = s.shiftByte := rfl
@[simp] theorem State.respond_txc (v : Byte) : (s.respond v).txc = s.txc := rfl
@[simp] theorem State.respond_wireTx (v : Byte) : (s.respond v).wireTx = s.wireTx := rfl
@[simp] theorem State.respond_rxQ (v : Byte) : (s.respond v).rxQ = s.rxQ := rfl
@[simp] theorem State.respond_extIrq (v : Byte) : (s.respond v).extIrq = s.extIrq := rfl
@[simp] theorem State.respond_faults (v : Byte) : (s.respond v).faults = s.faults := rfl
@[simp] theorem State.respond_seqStopped (v : Byte) : (s.respond v).seqStopped = s.seqStopped := rfl
@[simp] theorem State.respond_port (v : Byte) : (s.respond v).port = s.port := rfl
@[simp] theorem State.respond_sched (v : Byte) : (s.respond v).sched = s.sched := rfl
@[simp] theorem State.respond_again (v : Byte) : (s.respond v).again = s.again := rfl
@[simp] theorem State.respond_freeTurns (v : Byte) : (s.respond v).freeTurns = s.freeTurns := rfl

/-! The fields after `State.respondIllegal`. -/

@[simp] theorem State.respondIllegal_cfg : (s.respondIllegal).cfg = s.cfg := rfl
@[simp] theorem State.respondIllegal_ie : (s.respondIllegal).ie = s.ie := rfl
@[simp] theorem State.respondIllegal_err : (s.respondIllegal).err = s.err := rfl
@[simp] theorem State.respondIllegal_ph : (s.respondIllegal).ph = s.ph := rfl
@[simp] theorem State.respondIllegal_cmd : (s.respondIllegal).cmd = s.cmd := rfl
@[simp] theorem State.respondIllegal_sav : (s.respondIllegal).sav = s.sav := rfl
@[simp] theorem State.respondIllegal_tmp : (s.respondIllegal).tmp = s.tmp := rfl
@[simp] theorem State.respondIllegal_cur : (s.respondIllegal).cur = s.cur := rfl
@[simp] theorem State.respondIllegal_nxt : (s.respondIllegal).nxt = s.nxt := rfl
@[simp] theorem State.respondIllegal_rspValid : (s.respondIllegal).rspValid = true := rfl
@[simp] theorem State.respondIllegal_rspIll : (s.respondIllegal).rspIll = true := rfl
@[simp] theorem State.respondIllegal_rspData : (s.respondIllegal).rspData = 0x00 := rfl
@[simp] theorem State.respondIllegal_eeMem : (s.respondIllegal).eeMem = s.eeMem := rfl
@[simp] theorem State.respondIllegal_eear : (s.respondIllegal).eear = s.eear := rfl
@[simp] theorem State.respondIllegal_eedr : (s.respondIllegal).eedr = s.eedr := rfl
@[simp] theorem State.respondIllegal_eeLatch : (s.respondIllegal).eeLatch = s.eeLatch := rfl
@[simp] theorem State.respondIllegal_eeBusy : (s.respondIllegal).eeBusy = s.eeBusy := rfl
@[simp] theorem State.respondIllegal_eePendAddr : (s.respondIllegal).eePendAddr = s.eePendAddr := rfl
@[simp] theorem State.respondIllegal_eePendData : (s.respondIllegal).eePendData = s.eePendData := rfl
@[simp] theorem State.respondIllegal_spmBusy : (s.respondIllegal).spmBusy = s.spmBusy := rfl
@[simp] theorem State.respondIllegal_eeWrCount : (s.respondIllegal).eeWrCount = s.eeWrCount := rfl
@[simp] theorem State.respondIllegal_configured : (s.respondIllegal).configured = s.configured := rfl
@[simp] theorem State.respondIllegal_txen : (s.respondIllegal).txen = s.txen := rfl
@[simp] theorem State.respondIllegal_rxen : (s.respondIllegal).rxen = s.rxen := rfl
@[simp] theorem State.respondIllegal_fmt : (s.respondIllegal).fmt = s.fmt := rfl
@[simp] theorem State.respondIllegal_baud : (s.respondIllegal).baud = s.baud := rfl
@[simp] theorem State.respondIllegal_txie : (s.respondIllegal).txie = s.txie := rfl
@[simp] theorem State.respondIllegal_rxie : (s.respondIllegal).rxie = s.rxie := rfl
@[simp] theorem State.respondIllegal_udre : (s.respondIllegal).udre = s.udre := rfl
@[simp] theorem State.respondIllegal_txdr : (s.respondIllegal).txdr = s.txdr := rfl
@[simp] theorem State.respondIllegal_shiftBusy : (s.respondIllegal).shiftBusy = s.shiftBusy := rfl
@[simp] theorem State.respondIllegal_shiftByte : (s.respondIllegal).shiftByte = s.shiftByte := rfl
@[simp] theorem State.respondIllegal_txc : (s.respondIllegal).txc = s.txc := rfl
@[simp] theorem State.respondIllegal_wireTx : (s.respondIllegal).wireTx = s.wireTx := rfl
@[simp] theorem State.respondIllegal_rxQ : (s.respondIllegal).rxQ = s.rxQ := rfl
@[simp] theorem State.respondIllegal_extIrq : (s.respondIllegal).extIrq = s.extIrq := rfl
@[simp] theorem State.respondIllegal_faults : (s.respondIllegal).faults = s.faults := rfl
@[simp] theorem State.respondIllegal_seqStopped : (s.respondIllegal).seqStopped = s.seqStopped := rfl
@[simp] theorem State.respondIllegal_port : (s.respondIllegal).port = s.port := rfl
@[simp] theorem State.respondIllegal_sched : (s.respondIllegal).sched = s.sched := rfl
@[simp] theorem State.respondIllegal_again : (s.respondIllegal).again = s.again := rfl
@[simp] theorem State.respondIllegal_freeTurns : (s.respondIllegal).freeTurns = s.freeTurns := rfl

/-! The fields after `State.orErr`. -/

@[simp] theorem State.orErr_cfg (m : Byte) : (s.orErr m).cfg = s.cfg := rfl
@[simp] theorem State.orErr_ie (m : Byte) : (s.orErr m).ie = s.ie := rfl
@[simp] theorem State.orErr_err (m : Byte) : (s.orErr m).err = s.err ||| m := rfl
@[simp] theorem State.orErr_ph (m : Byte) : (s.orErr m).ph = s.ph := rfl
@[simp] theorem State.orErr_cmd (m : Byte) : (s.orErr m).cmd = s.cmd := rfl
@[simp] theorem State.orErr_sav (m : Byte) : (s.orErr m).sav = s.sav := rfl
@[simp] theorem State.orErr_tmp (m : Byte) : (s.orErr m).tmp = s.tmp := rfl
@[simp] theorem State.orErr_cur (m : Byte) : (s.orErr m).cur = s.cur := rfl
@[simp] theorem State.orErr_nxt (m : Byte) : (s.orErr m).nxt = s.nxt := rfl
@[simp] theorem State.orErr_rspValid (m : Byte) : (s.orErr m).rspValid = s.rspValid := rfl
@[simp] theorem State.orErr_rspIll (m : Byte) : (s.orErr m).rspIll = s.rspIll := rfl
@[simp] theorem State.orErr_rspData (m : Byte) : (s.orErr m).rspData = s.rspData := rfl
@[simp] theorem State.orErr_eeMem (m : Byte) : (s.orErr m).eeMem = s.eeMem := rfl
@[simp] theorem State.orErr_eear (m : Byte) : (s.orErr m).eear = s.eear := rfl
@[simp] theorem State.orErr_eedr (m : Byte) : (s.orErr m).eedr = s.eedr := rfl
@[simp] theorem State.orErr_eeLatch (m : Byte) : (s.orErr m).eeLatch = s.eeLatch := rfl
@[simp] theorem State.orErr_eeBusy (m : Byte) : (s.orErr m).eeBusy = s.eeBusy := rfl
@[simp] theorem State.orErr_eePendAddr (m : Byte) : (s.orErr m).eePendAddr = s.eePendAddr := rfl
@[simp] theorem State.orErr_eePendData (m : Byte) : (s.orErr m).eePendData = s.eePendData := rfl
@[simp] theorem State.orErr_spmBusy (m : Byte) : (s.orErr m).spmBusy = s.spmBusy := rfl
@[simp] theorem State.orErr_eeWrCount (m : Byte) : (s.orErr m).eeWrCount = s.eeWrCount := rfl
@[simp] theorem State.orErr_configured (m : Byte) : (s.orErr m).configured = s.configured := rfl
@[simp] theorem State.orErr_txen (m : Byte) : (s.orErr m).txen = s.txen := rfl
@[simp] theorem State.orErr_rxen (m : Byte) : (s.orErr m).rxen = s.rxen := rfl
@[simp] theorem State.orErr_fmt (m : Byte) : (s.orErr m).fmt = s.fmt := rfl
@[simp] theorem State.orErr_baud (m : Byte) : (s.orErr m).baud = s.baud := rfl
@[simp] theorem State.orErr_txie (m : Byte) : (s.orErr m).txie = s.txie := rfl
@[simp] theorem State.orErr_rxie (m : Byte) : (s.orErr m).rxie = s.rxie := rfl
@[simp] theorem State.orErr_udre (m : Byte) : (s.orErr m).udre = s.udre := rfl
@[simp] theorem State.orErr_txdr (m : Byte) : (s.orErr m).txdr = s.txdr := rfl
@[simp] theorem State.orErr_shiftBusy (m : Byte) : (s.orErr m).shiftBusy = s.shiftBusy := rfl
@[simp] theorem State.orErr_shiftByte (m : Byte) : (s.orErr m).shiftByte = s.shiftByte := rfl
@[simp] theorem State.orErr_txc (m : Byte) : (s.orErr m).txc = s.txc := rfl
@[simp] theorem State.orErr_wireTx (m : Byte) : (s.orErr m).wireTx = s.wireTx := rfl
@[simp] theorem State.orErr_rxQ (m : Byte) : (s.orErr m).rxQ = s.rxQ := rfl
@[simp] theorem State.orErr_extIrq (m : Byte) : (s.orErr m).extIrq = s.extIrq := rfl
@[simp] theorem State.orErr_faults (m : Byte) : (s.orErr m).faults = s.faults := rfl
@[simp] theorem State.orErr_seqStopped (m : Byte) : (s.orErr m).seqStopped = s.seqStopped := rfl
@[simp] theorem State.orErr_port (m : Byte) : (s.orErr m).port = s.port := rfl
@[simp] theorem State.orErr_sched (m : Byte) : (s.orErr m).sched = s.sched := rfl
@[simp] theorem State.orErr_again (m : Byte) : (s.orErr m).again = s.again := rfl
@[simp] theorem State.orErr_freeTurns (m : Byte) : (s.orErr m).freeTurns = s.freeTurns := rfl

/-! The fields after `State.enterSection`. -/

@[simp] theorem State.enterSection_cfg : (s.enterSection).cfg = s.cfg := rfl
@[simp] theorem State.enterSection_ie : (s.enterSection).ie = false := rfl
@[simp] theorem State.enterSection_err : (s.enterSection).err = s.err := rfl
@[simp] theorem State.enterSection_ph : (s.enterSection).ph = s.ph := rfl
@[simp] theorem State.enterSection_cmd : (s.enterSection).cmd = s.cmd := rfl
@[simp] theorem State.enterSection_sav : (s.enterSection).sav = s.ie := rfl
@[simp] theorem State.enterSection_tmp : (s.enterSection).tmp = s.tmp := rfl
@[simp] theorem State.enterSection_cur : (s.enterSection).cur = s.cur := rfl
@[simp] theorem State.enterSection_nxt : (s.enterSection).nxt = s.nxt := rfl
@[simp] theorem State.enterSection_rspValid : (s.enterSection).rspValid = s.rspValid := rfl
@[simp] theorem State.enterSection_rspIll : (s.enterSection).rspIll = s.rspIll := rfl
@[simp] theorem State.enterSection_rspData : (s.enterSection).rspData = s.rspData := rfl
@[simp] theorem State.enterSection_eeMem : (s.enterSection).eeMem = s.eeMem := rfl
@[simp] theorem State.enterSection_eear : (s.enterSection).eear = s.eear := rfl
@[simp] theorem State.enterSection_eedr : (s.enterSection).eedr = s.eedr := rfl
@[simp] theorem State.enterSection_eeLatch : (s.enterSection).eeLatch = s.eeLatch := rfl
@[simp] theorem State.enterSection_eeBusy : (s.enterSection).eeBusy = s.eeBusy := rfl
@[simp] theorem State.enterSection_eePendAddr : (s.enterSection).eePendAddr = s.eePendAddr := rfl
@[simp] theorem State.enterSection_eePendData : (s.enterSection).eePendData = s.eePendData := rfl
@[simp] theorem State.enterSection_spmBusy : (s.enterSection).spmBusy = s.spmBusy := rfl
@[simp] theorem State.enterSection_eeWrCount : (s.enterSection).eeWrCount = s.eeWrCount := rfl
@[simp] theorem State.enterSection_configured : (s.enterSection).configured = s.configured := rfl
@[simp] theorem State.enterSection_txen : (s.enterSection).txen = s.txen := rfl
@[simp] theorem State.enterSection_rxen : (s.enterSection).rxen = s.rxen := rfl
@[simp] theorem State.enterSection_fmt : (s.enterSection).fmt = s.fmt := rfl
@[simp] theorem State.enterSection_baud : (s.enterSection).baud = s.baud := rfl
@[simp] theorem State.enterSection_txie : (s.enterSection).txie = s.txie := rfl
@[simp] theorem State.enterSection_rxie : (s.enterSection).rxie = s.rxie := rfl
@[simp] theorem State.enterSection_udre : (s.enterSection).udre = s.udre := rfl
@[simp] theorem State.enterSection_txdr : (s.enterSection).txdr = s.txdr := rfl
@[simp] theorem State.enterSection_shiftBusy : (s.enterSection).shiftBusy = s.shiftBusy := rfl
@[simp] theorem State.enterSection_shiftByte : (s.enterSection).shiftByte = s.shiftByte := rfl
@[simp] theorem State.enterSection_txc : (s.enterSection).txc = s.txc := rfl
@[simp] theorem State.enterSection_wireTx : (s.enterSection).wireTx = s.wireTx := rfl
@[simp] theorem State.enterSection_rxQ : (s.enterSection).rxQ = s.rxQ := rfl
@[simp] theorem State.enterSection_extIrq : (s.enterSection).extIrq = s.extIrq := rfl
@[simp] theorem State.enterSection_faults : (s.enterSection).faults = s.faults := rfl
@[simp] theorem State.enterSection_seqStopped : (s.enterSection).seqStopped = s.seqStopped := rfl
@[simp] theorem State.enterSection_port : (s.enterSection).port = s.port := rfl
@[simp] theorem State.enterSection_sched : (s.enterSection).sched = s.sched := rfl
@[simp] theorem State.enterSection_again : (s.enterSection).again = s.again := rfl
@[simp] theorem State.enterSection_freeTurns : (s.enterSection).freeTurns = s.freeTurns := rfl

/-! The fields after `State.exitSection`. -/

@[simp] theorem State.exitSection_cfg : (s.exitSection).cfg = s.cfg := rfl
@[simp] theorem State.exitSection_ie : (s.exitSection).ie = s.sav := rfl
@[simp] theorem State.exitSection_err : (s.exitSection).err = s.err := rfl
@[simp] theorem State.exitSection_ph : (s.exitSection).ph = s.ph := rfl
@[simp] theorem State.exitSection_cmd : (s.exitSection).cmd = s.cmd := rfl
@[simp] theorem State.exitSection_sav : (s.exitSection).sav = s.sav := rfl
@[simp] theorem State.exitSection_tmp : (s.exitSection).tmp = s.tmp := rfl
@[simp] theorem State.exitSection_cur : (s.exitSection).cur = s.cur := rfl
@[simp] theorem State.exitSection_nxt : (s.exitSection).nxt = s.nxt := rfl
@[simp] theorem State.exitSection_rspValid : (s.exitSection).rspValid = s.rspValid := rfl
@[simp] theorem State.exitSection_rspIll : (s.exitSection).rspIll = s.rspIll := rfl
@[simp] theorem State.exitSection_rspData : (s.exitSection).rspData = s.rspData := rfl
@[simp] theorem State.exitSection_eeMem : (s.exitSection).eeMem = s.eeMem := rfl
@[simp] theorem State.exitSection_eear : (s.exitSection).eear = s.eear := rfl
@[simp] theorem State.exitSection_eedr : (s.exitSection).eedr = s.eedr := rfl
@[simp] theorem State.exitSection_eeLatch : (s.exitSection).eeLatch = s.eeLatch := rfl
@[simp] theorem State.exitSection_eeBusy : (s.exitSection).eeBusy = s.eeBusy := rfl
@[simp] theorem State.exitSection_eePendAddr : (s.exitSection).eePendAddr = s.eePendAddr := rfl
@[simp] theorem State.exitSection_eePendData : (s.exitSection).eePendData = s.eePendData := rfl
@[simp] theorem State.exitSection_spmBusy : (s.exitSection).spmBusy = s.spmBusy := rfl
@[simp] theorem State.exitSection_eeWrCount : (s.exitSection).eeWrCount = s.eeWrCount := rfl
@[simp] theorem State.exitSection_configured : (s.exitSection).configured = s.configured := rfl
@[simp] theorem State.exitSection_txen : (s.exitSection).txen = s.txen := rfl
@[simp] theorem State.exitSection_rxen : (s.exitSection).rxen = s.rxen := rfl
@[simp] theorem State.exitSection_fmt : (s.exitSection).fmt = s.fmt := rfl
@[simp] theorem State.exitSection_baud : (s.exitSection).baud = s.baud := rfl
@[simp] theorem State.exitSection_txie : (s.exitSection).txie = s.txie := rfl
@[simp] theorem State.exitSection_rxie : (s.exitSection).rxie = s.rxie := rfl
@[simp] theorem State.exitSection_udre : (s.exitSection).udre = s.udre := rfl
@[simp] theorem State.exitSection_txdr : (s.exitSection).txdr = s.txdr := rfl
@[simp] theorem State.exitSection_shiftBusy : (s.exitSection).shiftBusy = s.shiftBusy := rfl
@[simp] theorem State.exitSection_shiftByte : (s.exitSection).shiftByte = s.shiftByte := rfl
@[simp] theorem State.exitSection_txc : (s.exitSection).txc = s.txc := rfl
@[simp] theorem State.exitSection_wireTx : (s.exitSection).wireTx = s.wireTx := rfl
@[simp] theorem State.exitSection_rxQ : (s.exitSection).rxQ = s.rxQ := rfl
@[simp] theorem State.exitSection_extIrq : (s.exitSection).extIrq = s.extIrq := rfl
@[simp] theorem State.exitSection_faults : (s.exitSection).faults = s.faults := rfl
@[simp] theorem State.exitSection_seqStopped : (s.exitSection).seqStopped = s.seqStopped := rfl
@[simp] theorem State.exitSection_port : (s.exitSection).port = s.port := rfl
@[simp] theorem State.exitSection_sched : (s.exitSection).sched = s.sched := rfl
@[simp] theorem State.exitSection_again : (s.exitSection).again = s.again := rfl
@[simp] theorem State.exitSection_freeTurns : (s.exitSection).freeTurns = s.freeTurns := rfl

/-! The fields after `State.latch`. -/

@[simp] theorem State.latch_cfg : (s.latch).cfg = s.cfg := rfl
@[simp] theorem State.latch_ie : (s.latch).ie = s.ie := rfl
@[simp] theorem State.latch_err : (s.latch).err = s.err := rfl
@[simp] theorem State.latch_ph : (s.latch).ph = s.ph := rfl
@[simp] theorem State.latch_cmd : (s.latch).cmd = s.cmd := rfl
@[simp] theorem State.latch_sav : (s.latch).sav = s.sav := rfl
@[simp] theorem State.latch_tmp : (s.latch).tmp = s.tmp := rfl
@[simp] theorem State.latch_cur : (s.latch).cur = s.cur := rfl
@[simp] theorem State.latch_nxt : (s.latch).nxt = s.nxt := rfl
@[simp] theorem State.latch_rspValid : (s.latch).rspValid = s.rspValid := rfl
@[simp] theorem State.latch_rspIll : (s.latch).rspIll = s.rspIll := rfl
@[simp] theorem State.latch_rspData : (s.latch).rspData = s.rspData := rfl
@[simp] theorem State.latch_eeMem : (s.latch).eeMem = s.eeMem := rfl
@[simp] theorem State.latch_eear : (s.latch).eear = s.eear := rfl
@[simp] theorem State.latch_eedr : (s.latch).eedr = s.eedr := rfl
@[simp] theorem State.latch_eeLatch : (s.latch).eeLatch = true := rfl
@[simp] theorem State.latch_eeBusy : (s.latch).eeBusy = s.eeBusy := rfl
@[simp] theorem State.latch_eePendAddr : (s.latch).eePendAddr = s.eePendAddr := rfl
@[simp] theorem State.latch_eePendData : (s.latch).eePendData = s.eePendData := rfl
@[simp] theorem State.latch_spmBusy : (s.latch).spmBusy = s.spmBusy := rfl
@[simp] theorem State.latch_eeWrCount : (s.latch).eeWrCount = s.eeWrCount := rfl
@[simp] theorem State.latch_configured : (s.latch).configured = s.configured := rfl
@[simp] theorem State.latch_txen : (s.latch).txen = s.txen := rfl
@[simp] theorem State.latch_rxen : (s.latch).rxen = s.rxen := rfl
@[simp] theorem State.latch_fmt : (s.latch).fmt = s.fmt := rfl
@[simp] theorem State.latch_baud : (s.latch).baud = s.baud := rfl
@[simp] theorem State.latch_txie : (s.latch).txie = s.txie := rfl
@[simp] theorem State.latch_rxie : (s.latch).rxie = s.rxie := rfl
@[simp] theorem State.latch_udre : (s.latch).udre = s.udre := rfl
@[simp] theorem State.latch_txdr : (s.latch).txdr = s.txdr := rfl
@[simp] theorem State.latch_shiftBusy : (s.latch).shiftBusy = s.shiftBusy := rfl
@[simp] theorem State.latch_shiftByte : (s.latch).shiftByte = s.shiftByte := rfl
@[simp] theorem State.latch_txc : (s.latch).txc = s.txc := rfl
@[simp] theorem State.latch_wireTx : (s.latch).wireTx = s.wireTx := rfl
@[simp] theorem State.latch_rxQ : (s.latch).rxQ = s.rxQ := rfl
@[simp] theorem State.latch_extIrq : (s.latch).extIrq = s.extIrq := rfl
@[simp] theorem State.latch_faults : (s.latch).faults = s.faults := rfl
@[simp] theorem State.latch_seqStopped : (s.latch).seqStopped = s.seqStopped := rfl
@[simp] theorem State.latch_port : (s.latch).port = s.port := rfl
@[simp] theorem State.latch_sched : (s.latch).sched = s.sched := rfl
@[simp] theorem State.latch_again : (s.latch).again = s.again := rfl
@[simp] theorem State.latch_freeTurns : (s.latch).freeTurns = s.freeTurns := rfl

/-! The fields after `State.programEe`. -/

@[simp] theorem State.programEe_cfg (a : Addr) (d : Byte) : (s.programEe a d).cfg = s.cfg := rfl
@[simp] theorem State.programEe_ie (a : Addr) (d : Byte) : (s.programEe a d).ie = s.ie := rfl
@[simp] theorem State.programEe_err (a : Addr) (d : Byte) : (s.programEe a d).err = s.err := rfl
@[simp] theorem State.programEe_ph (a : Addr) (d : Byte) : (s.programEe a d).ph = s.ph := rfl
@[simp] theorem State.programEe_cmd (a : Addr) (d : Byte) : (s.programEe a d).cmd = s.cmd := rfl
@[simp] theorem State.programEe_sav (a : Addr) (d : Byte) : (s.programEe a d).sav = s.sav := rfl
@[simp] theorem State.programEe_tmp (a : Addr) (d : Byte) : (s.programEe a d).tmp = s.tmp := rfl
@[simp] theorem State.programEe_cur (a : Addr) (d : Byte) : (s.programEe a d).cur = s.cur := rfl
@[simp] theorem State.programEe_nxt (a : Addr) (d : Byte) : (s.programEe a d).nxt = s.nxt := rfl
@[simp] theorem State.programEe_rspValid (a : Addr) (d : Byte) : (s.programEe a d).rspValid = s.rspValid := rfl
@[simp] theorem State.programEe_rspIll (a : Addr) (d : Byte) : (s.programEe a d).rspIll = s.rspIll := rfl
@[simp] theorem State.programEe_rspData (a : Addr) (d : Byte) : (s.programEe a d).rspData = s.rspData := rfl
@[simp] theorem State.programEe_eeMem (a : Addr) (d : Byte) : (s.programEe a d).eeMem = s.eeMem := rfl
@[simp] theorem State.programEe_eear (a : Addr) (d : Byte) : (s.programEe a d).eear = a := rfl
@[simp] theorem State.programEe_eedr (a : Addr) (d : Byte) : (s.programEe a d).eedr = d := rfl
@[simp] theorem State.programEe_eeLatch (a : Addr) (d : Byte) : (s.programEe a d).eeLatch = false := rfl
@[simp] theorem State.programEe_eeBusy (a : Addr) (d : Byte) : (s.programEe a d).eeBusy = s.eeBusy := rfl
@[simp] theorem State.programEe_eePendAddr (a : Addr) (d : Byte) : (s.programEe a d).eePendAddr = s.eePendAddr := rfl
@[simp] theorem State.programEe_eePendData (a : Addr) (d : Byte) : (s.programEe a d).eePendData = s.eePendData := rfl
@[simp] theorem State.programEe_spmBusy (a : Addr) (d : Byte) : (s.programEe a d).spmBusy = s.spmBusy := rfl
@[simp] theorem State.programEe_eeWrCount (a : Addr) (d : Byte) : (s.programEe a d).eeWrCount = s.eeWrCount := rfl
@[simp] theorem State.programEe_configured (a : Addr) (d : Byte) : (s.programEe a d).configured = s.configured := rfl
@[simp] theorem State.programEe_txen (a : Addr) (d : Byte) : (s.programEe a d).txen = s.txen := rfl
@[simp] theorem State.programEe_rxen (a : Addr) (d : Byte) : (s.programEe a d).rxen = s.rxen := rfl
@[simp] theorem State.programEe_fmt (a : Addr) (d : Byte) : (s.programEe a d).fmt = s.fmt := rfl
@[simp] theorem State.programEe_baud (a : Addr) (d : Byte) : (s.programEe a d).baud = s.baud := rfl
@[simp] theorem State.programEe_txie (a : Addr) (d : Byte) : (s.programEe a d).txie = s.txie := rfl
@[simp] theorem State.programEe_rxie (a : Addr) (d : Byte) : (s.programEe a d).rxie = s.rxie := rfl
@[simp] theorem State.programEe_udre (a : Addr) (d : Byte) : (s.programEe a d).udre = s.udre := rfl
@[simp] theorem State.programEe_txdr (a : Addr) (d : Byte) : (s.programEe a d).txdr = s.txdr := rfl
@[simp] theorem State.programEe_shiftBusy (a : Addr) (d : Byte) : (s.programEe a d).shiftBusy = s.shiftBusy := rfl
@[simp] theorem State.programEe_shiftByte (a : Addr) (d : Byte) : (s.programEe a d).shiftByte = s.shiftByte := rfl
@[simp] theorem State.programEe_txc (a : Addr) (d : Byte) : (s.programEe a d).txc = s.txc := rfl
@[simp] theorem State.programEe_wireTx (a : Addr) (d : Byte) : (s.programEe a d).wireTx = s.wireTx := rfl
@[simp] theorem State.programEe_rxQ (a : Addr) (d : Byte) : (s.programEe a d).rxQ = s.rxQ := rfl
@[simp] theorem State.programEe_extIrq (a : Addr) (d : Byte) : (s.programEe a d).extIrq = s.extIrq := rfl
@[simp] theorem State.programEe_faults (a : Addr) (d : Byte) : (s.programEe a d).faults = s.faults := rfl
@[simp] theorem State.programEe_seqStopped (a : Addr) (d : Byte) : (s.programEe a d).seqStopped = s.seqStopped := rfl
@[simp] theorem State.programEe_port (a : Addr) (d : Byte) : (s.programEe a d).port = s.port := rfl
@[simp] theorem State.programEe_sched (a : Addr) (d : Byte) : (s.programEe a d).sched = s.sched := rfl
@[simp] theorem State.programEe_again (a : Addr) (d : Byte) : (s.programEe a d).again = s.again := rfl
@[simp] theorem State.programEe_freeTurns (a : Addr) (d : Byte) : (s.programEe a d).freeTurns = s.freeTurns := rfl

/-! The fields after `State.withPort`. -/

@[simp] theorem State.withPort_cfg (rest : List Word) : (s.withPort rest).cfg = s.cfg := rfl
@[simp] theorem State.withPort_ie (rest : List Word) : (s.withPort rest).ie = s.ie := rfl
@[simp] theorem State.withPort_err (rest : List Word) : (s.withPort rest).err = s.err := rfl
@[simp] theorem State.withPort_ph (rest : List Word) : (s.withPort rest).ph = s.ph := rfl
@[simp] theorem State.withPort_cmd (rest : List Word) : (s.withPort rest).cmd = s.cmd := rfl
@[simp] theorem State.withPort_sav (rest : List Word) : (s.withPort rest).sav = s.sav := rfl
@[simp] theorem State.withPort_tmp (rest : List Word) : (s.withPort rest).tmp = s.tmp := rfl
@[simp] theorem State.withPort_cur (rest : List Word) : (s.withPort rest).cur = s.cur := rfl
@[simp] theorem State.withPort_nxt (rest : List Word) : (s.withPort rest).nxt = s.nxt := rfl
@[simp] theorem State.withPort_rspValid (rest : List Word) : (s.withPort rest).rspValid = s.rspValid := rfl
@[simp] theorem State.withPort_rspIll (rest : List Word) : (s.withPort rest).rspIll = s.rspIll := rfl
@[simp] theorem State.withPort_rspData (rest : List Word) : (s.withPort rest).rspData = s.rspData := rfl
@[simp] theorem State.withPort_eeMem (rest : List Word) : (s.withPort rest).eeMem = s.eeMem := rfl
@[simp] theorem State.withPort_eear (rest : List Word) : (s.withPort rest).eear = s.eear := rfl
@[simp] theorem State.withPort_eedr (rest : List Word) : (s.withPort rest).eedr = s.eedr := rfl
@[simp] theorem State.withPort_eeLatch (rest : List Word) : (s.withPort rest).eeLatch = s.eeLatch := rfl
@[simp] theorem State.withPort_eeBusy (rest : List Word) : (s.withPort rest).eeBusy = s.eeBusy := rfl
@[simp] theorem State.withPort_eePendAddr (rest : List Word) : (s.withPort rest).eePendAddr = s.eePendAddr := rfl
@[simp] theorem State.withPort_eePendData (rest : List Word) : (s.withPort rest).eePendData = s.eePendData := rfl
@[simp] theorem State.withPort_spmBusy (rest : List Word) : (s.withPort rest).spmBusy = s.spmBusy := rfl
@[simp] theorem State.withPort_eeWrCount (rest : List Word) : (s.withPort rest).eeWrCount = s.eeWrCount := rfl
@[simp] theorem State.withPort_configured (rest : List Word) : (s.withPort rest).configured = s.configured := rfl
@[simp] theorem State.withPort_txen (rest : List Word) : (s.withPort rest).txen = s.txen := rfl
@[simp] theorem State.withPort_rxen (rest : List Word) : (s.withPort rest).rxen = s.rxen := rfl
@[simp] theorem State.withPort_fmt (rest : List Word) : (s.withPort rest).fmt = s.fmt := rfl
@[simp] theorem State.withPort_baud (rest : List Word) : (s.withPort rest).baud = s.baud := rfl
@[simp] theorem State.withPort_txie (rest : List Word) : (s.withPort rest).txie = s.txie := rfl
@[simp] theorem State.withPort_rxie (rest : List Word) : (s.withPort rest).rxie = s.rxie := rfl
@[simp] theorem State.withPort_udre (rest : List Word) : (s.withPort rest).udre = s.udre := rfl
@[simp] theorem State.withPort_txdr (rest : List Word) : (s.withPort rest).txdr = s.txdr := rfl
@[simp] theorem State.withPort_shiftBusy (rest : List Word) : (s.withPort rest).shiftBusy = s.shiftBusy := rfl
@[simp] theorem State.withPort_shiftByte (rest : List Word) : (s.withPort rest).shiftByte = s.shiftByte := rfl
@[simp] theorem State.withPort_txc (rest : List Word) : (s.withPort rest).txc = s.txc := rfl
@[simp] theorem State.withPort_wireTx (rest : List Word) : (s.withPort rest).wireTx = s.wireTx := rfl
@[simp] theorem State.withPort_rxQ (rest : List Word) : (s.withPort rest).rxQ = s.rxQ := rfl
@[simp] theorem State.withPort_extIrq (rest : List Word) : (s.withPort rest).extIrq = s.extIrq := rfl
@[simp] theorem State.withPort_faults (rest : List Word) : (s.withPort rest).faults = s.faults := rfl
@[simp] theorem State.withPort_seqStopped (rest : List Word) : (s.withPort rest).seqStopped = s.seqStopped := rfl
@[simp] theorem State.withPort_port (rest : List Word) : (s.withPort rest).port = rest := rfl
@[simp] theorem State.withPort_sched (rest : List Word) : (s.withPort rest).sched = s.sched := rfl
@[simp] theorem State.withPort_again (rest : List Word) : (s.withPort rest).again = s.again := rfl
@[simp] theorem State.withPort_freeTurns (rest : List Word) : (s.withPort rest).freeTurns = s.freeTurns := rfl

/-! The fields after `State.accept`. -/

@[simp] theorem State.accept_cfg (w : Word) : (s.accept w).cfg = s.cfg := rfl
@[simp] theorem State.accept_ie (w : Word) : (s.accept w).ie = s.ie := rfl
@[simp] theorem State.accept_err (w : Word) : (s.accept w).err = s.err := rfl
@[simp] theorem State.accept_ph (w : Word) : (s.accept w).ph = s.ph := rfl
@[simp] theorem State.accept_cmd (w : Word) : (s.accept w).cmd = w := rfl
@[simp] theorem State.accept_sav (w : Word) : (s.accept w).sav = s.sav := rfl
@[simp] theorem State.accept_tmp (w : Word) : (s.accept w).tmp = s.tmp := rfl
@[simp] theorem State.accept_cur (w : Word) : (s.accept w).cur = s.cur := rfl
@[simp] theorem State.accept_nxt (w : Word) : (s.accept w).nxt = s.nxt := rfl
@[simp] theorem State.accept_rspValid (w : Word) : (s.accept w).rspValid = false := rfl
@[simp] theorem State.accept_rspIll (w : Word) : (s.accept w).rspIll = false := rfl
@[simp] theorem State.accept_rspData (w : Word) : (s.accept w).rspData = s.rspData := rfl
@[simp] theorem State.accept_eeMem (w : Word) : (s.accept w).eeMem = s.eeMem := rfl
@[simp] theorem State.accept_eear (w : Word) : (s.accept w).eear = s.eear := rfl
@[simp] theorem State.accept_eedr (w : Word) : (s.accept w).eedr = s.eedr := rfl
@[simp] theorem State.accept_eeLatch (w : Word) : (s.accept w).eeLatch = s.eeLatch := rfl
@[simp] theorem State.accept_eeBusy (w : Word) : (s.accept w).eeBusy = s.eeBusy := rfl
@[simp] theorem State.accept_eePendAddr (w : Word) : (s.accept w).eePendAddr = s.eePendAddr := rfl
@[simp] theorem State.accept_eePendData (w : Word) : (s.accept w).eePendData = s.eePendData := rfl
@[simp] theorem State.accept_spmBusy (w : Word) : (s.accept w).spmBusy = s.spmBusy := rfl
@[simp] theorem State.accept_eeWrCount (w : Word) : (s.accept w).eeWrCount = s.eeWrCount := rfl
@[simp] theorem State.accept_configured (w : Word) : (s.accept w).configured = s.configured := rfl
@[simp] theorem State.accept_txen (w : Word) : (s.accept w).txen = s.txen := rfl
@[simp] theorem State.accept_rxen (w : Word) : (s.accept w).rxen = s.rxen := rfl
@[simp] theorem State.accept_fmt (w : Word) : (s.accept w).fmt = s.fmt := rfl
@[simp] theorem State.accept_baud (w : Word) : (s.accept w).baud = s.baud := rfl
@[simp] theorem State.accept_txie (w : Word) : (s.accept w).txie = s.txie := rfl
@[simp] theorem State.accept_rxie (w : Word) : (s.accept w).rxie = s.rxie := rfl
@[simp] theorem State.accept_udre (w : Word) : (s.accept w).udre = s.udre := rfl
@[simp] theorem State.accept_txdr (w : Word) : (s.accept w).txdr = s.txdr := rfl
@[simp] theorem State.accept_shiftBusy (w : Word) : (s.accept w).shiftBusy = s.shiftBusy := rfl
@[simp] theorem State.accept_shiftByte (w : Word) : (s.accept w).shiftByte = s.shiftByte := rfl
@[simp] theorem State.accept_txc (w : Word) : (s.accept w).txc = s.txc := rfl
@[simp] theorem State.accept_wireTx (w : Word) : (s.accept w).wireTx = s.wireTx := rfl
@[simp] theorem State.accept_rxQ (w : Word) : (s.accept w).rxQ = s.rxQ := rfl
@[simp] theorem State.accept_extIrq (w : Word) : (s.accept w).extIrq = s.extIrq := rfl
@[simp] theorem State.accept_faults (w : Word) : (s.accept w).faults = s.faults := rfl
@[simp] theorem State.accept_seqStopped (w : Word) : (s.accept w).seqStopped = s.seqStopped := rfl
@[simp] theorem State.accept_port (w : Word) : (s.accept w).port = s.port := rfl
@[simp] theorem State.accept_sched (w : Word) : (s.accept w).sched = s.sched := rfl
@[simp] theorem State.accept_again (w : Word) : (s.accept w).again = s.again := rfl
@[simp] theorem State.accept_freeTurns (w : Word) : (s.accept w).freeTurns = s.freeTurns := rfl

/-! The fields after `State.recordFault`. -/

@[simp] theorem State.recordFault_cfg (r : Fault) : (s.recordFault r).cfg = s.cfg := rfl
@[simp] theorem State.recordFault_ie (r : Fault) : (s.recordFault r).ie = s.ie := rfl
@[simp] theorem State.recordFault_err (r : Fault) : (s.recordFault r).err = s.err := rfl
@[simp] theorem State.recordFault_ph (r : Fault) : (s.recordFault r).ph = s.ph := rfl
@[simp] theorem State.recordFault_cmd (r : Fault) : (s.recordFault r).cmd = s.cmd := rfl
@[simp] theorem State.recordFault_sav (r : Fault) : (s.recordFault r).sav = s.sav := rfl
@[simp] theorem State.recordFault_tmp (r : Fault) : (s.recordFault r).tmp = s.tmp := rfl
@[simp] theorem State.recordFault_cur (r : Fault) : (s.recordFault r).cur = s.cur := rfl
@[simp] theorem State.recordFault_nxt (r : Fault) : (s.recordFault r).nxt = s.nxt := rfl
@[simp] theorem State.recordFault_rspValid (r : Fault) : (s.recordFault r).rspValid = s.rspValid := rfl
@[simp] theorem State.recordFault_rspIll (r : Fault) : (s.recordFault r).rspIll = s.rspIll := rfl
@[simp] theorem State.recordFault_rspData (r : Fault) : (s.recordFault r).rspData = s.rspData := rfl
@[simp] theorem State.recordFault_eeMem (r : Fault) : (s.recordFault r).eeMem = s.eeMem := rfl
@[simp] theorem State.recordFault_eear (r : Fault) : (s.recordFault r).eear = s.eear := rfl
@[simp] theorem State.recordFault_eedr (r : Fault) : (s.recordFault r).eedr = s.eedr := rfl
@[simp] theorem State.recordFault_eeLatch (r : Fault) : (s.recordFault r).eeLatch = s.eeLatch := rfl
@[simp] theorem State.recordFault_eeBusy (r : Fault) : (s.recordFault r).eeBusy = s.eeBusy := rfl
@[simp] theorem State.recordFault_eePendAddr (r : Fault) : (s.recordFault r).eePendAddr = s.eePendAddr := rfl
@[simp] theorem State.recordFault_eePendData (r : Fault) : (s.recordFault r).eePendData = s.eePendData := rfl
@[simp] theorem State.recordFault_spmBusy (r : Fault) : (s.recordFault r).spmBusy = s.spmBusy := rfl
@[simp] theorem State.recordFault_eeWrCount (r : Fault) : (s.recordFault r).eeWrCount = s.eeWrCount := rfl
@[simp] theorem State.recordFault_configured (r : Fault) : (s.recordFault r).configured = s.configured := rfl
@[simp] theorem State.recordFault_txen (r : Fault) : (s.recordFault r).txen = s.txen := rfl
@[simp] theorem State.recordFault_rxen (r : Fault) : (s.recordFault r).rxen = s.rxen := rfl
@[simp] theorem State.recordFault_fmt (r : Fault) : (s.recordFault r).fmt = s.fmt := rfl
@[simp] theorem State.recordFault_baud (r : Fault) : (s.recordFault r).baud = s.baud := rfl
@[simp] theorem State.recordFault_txie (r : Fault) : (s.recordFault r).txie = s.txie := rfl
@[simp] theorem State.recordFault_rxie (r : Fault) : (s.recordFault r).rxie = s.rxie := rfl
@[simp] theorem State.recordFault_udre (r : Fault) : (s.recordFault r).udre = s.udre := rfl
@[simp] theorem State.recordFault_txdr (r : Fault) : (s.recordFault r).txdr = s.txdr := rfl
@[simp] theorem State.recordFault_shiftBusy (r : Fault) : (s.recordFault r).shiftBusy = s.shiftBusy := rfl
@[simp] theorem State.recordFault_shiftByte (r : Fault) : (s.recordFault r).shiftByte = s.shiftByte := rfl
@[simp] theorem State.recordFault_txc (r : Fault) : (s.recordFault r).txc = s.txc := rfl
@[simp] theorem State.recordFault_wireTx (r : Fault) : (s.recordFault r).wireTx = s.wireTx := rfl
@[simp] theorem State.recordFault_rxQ (r : Fault) : (s.recordFault r).rxQ = s.rxQ := rfl
@[simp] theorem State.recordFault_extIrq (r : Fault) : (s.recordFault r).extIrq = s.extIrq := rfl
@[simp] theorem State.recordFault_faults (r : Fault) : (s.recordFault r).faults = addFault r s.faults := rfl
@[simp] theorem State.recordFault_seqStopped (r : Fault) : (s.recordFault r).seqStopped = true := rfl
@[simp] theorem State.recordFault_port (r : Fault) : (s.recordFault r).port = s.port := rfl
@[simp] theorem State.recordFault_sched (r : Fault) : (s.recordFault r).sched = s.sched := rfl
@[simp] theorem State.recordFault_again (r : Fault) : (s.recordFault r).again = s.again := rfl
@[simp] theorem State.recordFault_freeTurns (r : Fault) : (s.recordFault r).freeTurns = s.freeTurns := rfl

end Sys2Proof.Machine
end

