-- ==== Sys2Proof/Laws/Memory.lean ====
section
/-! SUPPORT. EE_MEM: reading after writing, and the canonical form that every write keeps. -/

namespace Sys2Proof.Machine

@[simp] theorem Memory.get_nil (n : Nat) : Memory.get [] n = none := rfl

@[simp] theorem Memory.get_cons (k : Nat) (v : Byte) (m : Memory) (n : Nat) :
    Memory.get ((k, v) :: m) n = if k = n then some v else Memory.get m n := rfl

@[simp] theorem Memory.set_nil (n : Nat) (v : Byte) : Memory.set [] n v = [(n, v)] := rfl

theorem Memory.set_cons (k : Nat) (w : Byte) (m : Memory) (n : Nat) (v : Byte) :
    Memory.set ((k, w) :: m) n v =
      if n < k then (n, v) :: (k, w) :: m else if n = k then (n, v) :: m else (k, w) :: Memory.set m n v := rfl

/-- A read after a write: the byte written at its address, every other byte as before. -/
theorem Memory.get_set (m : Memory) (n : Nat) (v : Byte) (x : Nat) :
    (m.set n v).get x = if x = n then some v else m.get x := by
  induction m with
  | nil =>
    rw [Memory.set_nil, Memory.get_cons, Memory.get_nil]
    simp only [eq_comm]
  | cons c m ih =>
    obtain ⟨k, w⟩ := c
    rw [Memory.set_cons]
    by_cases h1 : n < k
    · rw [if_pos h1, Memory.get_cons]
      simp only [eq_comm]
    · rw [if_neg h1]
      by_cases h2 : n = k
      · subst h2
        rw [if_pos rfl, Memory.get_cons, Memory.get_cons]
        by_cases hx : x = n
        · simp [hx]
        · simp [hx, Ne.symm hx]
      · rw [if_neg h2, Memory.get_cons, Memory.get_cons, ih]
        by_cases hk : k = x
        · subst hk
          simp [Ne.symm h2]
        · simp [hk]

theorem Memory.risesFrom_cons (lo k : Nat) (v : Byte) (m : Memory) :
    Memory.risesFrom lo ((k, v) :: m) = true ↔ lo < k ∧ Memory.risesFrom k m = true := by
  simp [Memory.risesFrom]

theorem Memory.risesFrom_set (m : Memory) (lo n : Nat) (v : Byte) (hn : lo < n)
    (h : Memory.risesFrom lo m = true) : Memory.risesFrom lo (m.set n v) = true := by
  induction m generalizing lo with
  | nil => simp [Memory.risesFrom, hn]
  | cons c m ih =>
    obtain ⟨k, w⟩ := c
    obtain ⟨h1, h2⟩ := (Memory.risesFrom_cons lo k w m).1 h
    rw [Memory.set_cons]
    split
    · next hlt => exact (Memory.risesFrom_cons ..).2 ⟨hn, (Memory.risesFrom_cons ..).2 ⟨hlt, h2⟩⟩
    · next hge =>
      split
      · next heq => exact (Memory.risesFrom_cons ..).2 ⟨hn, heq ▸ h2⟩
      · next hne => exact (Memory.risesFrom_cons ..).2 ⟨h1, ih k (by omega) h2⟩

/-- A write keeps the canonical form. -/
theorem Memory.wf_set (m : Memory) (n : Nat) (v : Byte) (h : m.wf = true) : (m.set n v).wf = true := by
  cases m with
  | nil => rfl
  | cons c m =>
    obtain ⟨k, w⟩ := c
    rw [Memory.set_cons]
    split
    · next hlt => exact (Memory.risesFrom_cons n k w m).2 ⟨hlt, h⟩
    · next hge =>
      split
      · next heq => exact heq ▸ h
      · next hne => exact Memory.risesFrom_set m k n v (by omega) h

/-- A write inside [0, size) keeps every listed address there. -/
theorem Memory.within_set (m : Memory) (n size : Nat) (v : Byte) (hn : n < size)
    (h : m.within size = true) : (m.set n v).within size = true := by
  induction m with
  | nil => simp [Memory.within, hn]
  | cons c m ih =>
    obtain ⟨k, w⟩ := c
    simp only [Memory.within, List.all_cons, Bool.and_eq_true, decide_eq_true_eq] at h ih ⊢
    rw [Memory.set_cons]
    split
    · simp [hn, h.1, h.2]
    · split
      · simp [hn, h.2]
      · simp [h.1, ih h.2]

/-- The memory of the state after reset is canonical. -/
theorem reset_memory_wf : State.reset.eeMem.wf = true := rfl

/-- One byte of EE_MEM after a write of another state's memory. -/
theorem State.eeByte_set (s t : State) (n : Nat) (v : Byte) (h : t.eeMem = s.eeMem.set n v) (x : Nat) :
    t.eeByte x = if x = n then v else s.eeByte x := by
  unfold State.eeByte
  rw [h, Memory.get_set]
  split <;> rfl

end Sys2Proof.Machine
end

