-- ==== Sys2Proof/Laws/Ops.lean ====
section
/-! SUPPORT. For each shared operation and phase, one lemma that says all it can do where it answers a next state. -/

namespace Sys2Proof.Machine

/-- Two parts of one micro-step answer a next state only through one. -/
theorem andThen_next {o : Result} {f : State → Result} {t : State} (h : andThen o f = .next t) :
    ∃ u, o = .next u ∧ f u = .next t := by
  cases o with
  | next u => exact ⟨u, rfl, h⟩
  | fault r => cases h
  | refused r => cases h

@[simp] theorem andThen_of_next (s : State) (f : State → Result) : andThen (.next s) f = f s := rfl

/-- The controller's read is made only at an address that exists. -/
theorem readEe_next {s t : State} {a : Addr} (h : s.readEe a = .next t) :
    a.toNat < s.cfg.size ∧ t = { s.programEe a (s.eeByte a.toNat) with tmp := s.eeByte a.toNat } := by
  unfold State.readEe at h
  split at h
  · next ha => exact ⟨ha, (Host.Outcome.next.inj h).symm⟩
  · cases h

/-- What `commit` does: a write starts on a ready EEPROM with the latch armed, and nothing happens without the latch. -/
theorem commit_next {s t : State} (h : s.commit = .next t) :
    (s.eeLatch = true ∧ s.eeReady = true ∧
      t = { s with eePendAddr := s.eear, eePendData := s.eedr, eeBusy := true, eeWrCount := s.eeWrCount + 1,
                   eeLatch := false }) ∨
    (s.eeLatch = false ∧ t = s) := by
  unfold State.commit at h
  split at h
  · next hl =>
    split at h
    · cases h
    · next hb =>
      refine .inl ⟨hl, ?_, (Host.Outcome.next.inj h).symm⟩
      simpa [State.eeReady] using hb
  · next hl => exact .inr ⟨by simpa using hl, (Host.Outcome.next.inj h).symm⟩

/-- The only fault of `commit` (42_eeprom.md R152). -/
theorem commit_fault {s : State} {r : Fault} (h : s.commit = .fault r) :
    r = .eeCommitWhileBusy ∧ s.eeReady = false := by
  unfold State.commit at h
  split at h
  · split at h
    · next hb => exact ⟨(Host.Outcome.fault.inj h).symm, by
        rcases Bool.or_eq_true_iff.1 hb with hb | hb <;> simp [State.eeReady, hb]⟩
    · cases h
  · cases h

/-- `commit` is never refused. -/
theorem commit_not_refused {s : State} {r : Refusal} : s.commit ≠ .refused r := by
  unfold State.commit
  split
  · split <;> intro h <;> cases h
  · intro h; cases h

/-- G_ACCESS of EE_READ. -/
theorem readAccess_next {s t : State} {a : Addr} (h : readAccess a s = .next t) :
    a.toNat < s.cfg.size ∧
    t = { s with eear := a, eedr := s.eeByte a.toNat, tmp := s.eeByte a.toNat, eeLatch := false, ph := .gExit } := by
  obtain ⟨u, hu, ht⟩ := andThen_next h
  obtain ⟨ha, rfl⟩ := readEe_next hu
  exact ⟨ha, (Host.Outcome.next.inj ht).symm⟩

/-- G_ACCESS of EE_WRITE. -/
theorem writeAccess_next {s t : State} {a : Addr} {d : Byte} (h : writeAccess a d s = .next t) :
    s.eeReady = true ∧
    t = { s with eear := a, eedr := d, eePendAddr := a, eePendData := d, eeBusy := true,
                 eeWrCount := s.eeWrCount + 1, eeLatch := false, ph := .gExit } := by
  obtain ⟨u, hu, ht⟩ := andThen_next h
  rcases commit_next hu with ⟨-, hr, rfl⟩ | ⟨hl, -⟩
  · exact ⟨hr, (Host.Outcome.next.inj ht).symm⟩
  · cases hl

/-- G_ACCESS of EE_UPDATE: no write where the stored byte equals the operand, one where it differs. -/
theorem updateAccess_next {s t : State} {a : Addr} {d : Byte} (h : updateAccess a d s = .next t) :
    a.toNat < s.cfg.size ∧
    ((s.eeByte a.toNat = d ∧ t = { s with eear := a, eedr := d, tmp := d, eeLatch := false, ph := .gExit }) ∨
     (s.eeByte a.toNat ≠ d ∧ s.eeReady = true ∧
      t = { s with eear := a, eedr := d, tmp := s.eeByte a.toNat, eePendAddr := a, eePendData := d, eeBusy := true,
                   eeWrCount := s.eeWrCount + 1, eeLatch := false, ph := .gExit })) := by
  obtain ⟨u, hu, ht⟩ := andThen_next h
  obtain ⟨ha, rfl⟩ := readEe_next hu
  refine ⟨ha, ?_⟩
  split at ht
  · next hd =>
    obtain ⟨v, hv, ht⟩ := andThen_next ht
    rcases commit_next hv with ⟨-, hr, rfl⟩ | ⟨hl, -⟩
    · exact .inr ⟨hd, hr, (Host.Outcome.next.inj ht).symm⟩
    · cases hl
  · next hd =>
    have hd' : s.eeByte a.toNat = d := by simpa using hd
    exact .inl ⟨hd', by rw [← hd']; exact (Host.Outcome.next.inj ht).symm⟩

/-- G_VALIDATE: rejected or on to G_POLL. -/
theorem gValidate_cases (a : Addr) (v : Byte) (s : State) :
    (s.validAddr a = true ∧ gValidate a v s = s.toPhase .gPoll) ∨
    (s.validAddr a = false ∧ gValidate a v s = (s.orErr s.cfg.codeEeBadAddr).respond v) := by
  unfold gValidate
  cases s.validAddr a <;> simp

/-- The phases of a guarded access (41_synchronizer.md R126). -/
theorem guardedAccess_next {a : Addr} {v : Byte} {access : State → Result} {result : State → Byte} {s t : State}
    (h : guardedAccess a v access result s = .next t) :
    ((s.ph = .idle ∨ s.ph = .gValidate) ∧ t = gValidate a v s) ∨
    (s.ph = .gPoll ∧ t = gPoll s) ∨ (s.ph = .gEnter ∧ t = gEnter s) ∨ (s.ph = .gRecheck ∧ t = gRecheck s) ∨
    (s.ph = .gAccess ∧ access s = .next t) ∨ (s.ph = .gExit ∧ t = gExit (result s) s) := by
  unfold guardedAccess at h
  cases hp : s.ph <;> simp only [hp] at h <;> simp_all [eq_comm]

/-- The phases of an atomic section (41_synchronizer.md R135). -/
theorem atomicSection_next {access : State → State} {s t : State} (h : atomicSection access s = .next t) :
    ((s.ph = .idle ∨ s.ph = .aEnter) ∧ t = s.enterSection.toPhase .aAccess) ∨
    (s.ph = .aAccess ∧ t = (access s).toPhase .aExit) ∨ (s.ph = .aExit ∧ t = s.exitSection.respond 0x00) := by
  unfold atomicSection at h
  cases hp : s.ph <;> simp only [hp] at h <;> simp_all [eq_comm]

/-- T_START (43_usart.md R176). -/
theorem tStart_cases (d : Byte) (s : State) :
    (d = s.cfg.charLf ∧ s.cfg.crlf = true ∧ tStart d s = { s with cur := s.cfg.charCr, nxt := some d, ph := .tPoll }) ∨
    (¬ (d = s.cfg.charLf ∧ s.cfg.crlf = true) ∧ tStart d s = { s with cur := d, nxt := none, ph := .tPoll }) := by
  unfold tStart
  split
  · next h => exact .inl ⟨h.1, h.2, rfl⟩
  · next h => exact .inr ⟨h, rfl⟩

/-- T_WRITE (43_usart.md R178). -/
theorem tWrite_next {s t : State} (h : tWrite s = .next t) :
    s.udre = true ∧
    ((∃ b, s.nxt = some b ∧
        t = { s with txdr := s.cur, udre := false, txc := false, cur := b, nxt := none, ph := .tPoll }) ∨
     (s.nxt = none ∧ t = { s with txdr := s.cur, udre := false, txc := false }.respond 0x00)) := by
  unfold tWrite at h
  split at h
  · next hu =>
    refine ⟨hu, ?_⟩
    cases hn : s.nxt with
    | none => rw [hn] at h; exact .inr ⟨rfl, (Host.Outcome.next.inj h).symm⟩
    | some b => rw [hn] at h; exact .inl ⟨b, rfl, (Host.Outcome.next.inj h).symm⟩
  · cases h

/-- R_INSPECT (43_usart.md R181). -/
theorem rInspect_next {s t : State} (h : rInspect s = .next t) :
    ∃ e q, s.rxQ = e :: q ∧ t = (s.orErr (rxCodes s.cfg e)).toPhase .rRead := by
  unfold rInspect at h
  cases hq : s.rxQ with
  | nil => rw [hq] at h; cases h
  | cons e q => rw [hq] at h; exact ⟨e, q, rfl, (Host.Outcome.next.inj h).symm⟩

/-- R_READ (43_usart.md R182). -/
theorem rRead_next {s t : State} (h : rRead s = .next t) :
    ∃ e q, s.rxQ = e :: q ∧ t = { s with rxQ := q }.respond e.data := by
  unfold rRead at h
  cases hq : s.rxQ with
  | nil => rw [hq] at h; cases h
  | cons e q => rw [hq] at h; exact ⟨e, q, rfl, (Host.Outcome.next.inj h).symm⟩

/-- The phases of US_TX_BYTE (43_usart.md R176 to R178). -/
theorem execUsTxByte_next {d : Byte} {s t : State} (h : execUsTxByte d s = .next t) :
    ((s.ph = .idle ∨ s.ph = .tStart) ∧ t = tStart d s) ∨ (s.ph = .tPoll ∧ t = tPoll s) ∨
    (s.ph = .tWrite ∧ tWrite s = .next t) := by
  unfold execUsTxByte at h
  cases hp : s.ph <;> simp only [hp] at h <;> simp_all [eq_comm]

/-- The phases of US_RX_BYTE (43_usart.md R180 to R182). -/
theorem execUsRxByte_next {s t : State} (h : execUsRxByte s = .next t) :
    ((s.ph = .idle ∨ s.ph = .rPoll) ∧ t = rPoll s) ∨ (s.ph = .rInspect ∧ rInspect s = .next t) ∨
    (s.ph = .rRead ∧ rRead s = .next t) := by
  unfold execUsRxByte at h
  cases hp : s.ph <;> simp only [hp] at h <;> simp_all [eq_comm]

/-- The completion step (42_eeprom.md R150). -/
theorem eepStep_cases (stray : Option (Nat × Byte)) (s : State) :
    (s.eeBusy = true ∧ eepStep stray s = { s with eeMem := completedMemory stray s, eeBusy := false }) ∨
    (s.eeBusy = false ∧ eepStep stray s = s) := by
  unfold eepStep
  cases s.eeBusy <;> simp

/-- EE_MEM after a completion: the pending byte at an address of the store, else the byte drawn, if it is of the store. -/
theorem completedMemory_cases (stray : Option (Nat × Byte)) (s : State) :
    (s.eePendAddr.toNat < s.cfg.size ∧ completedMemory stray s = s.eeMem.set s.eePendAddr.toNat s.eePendData) ∨
    (s.cfg.size ≤ s.eePendAddr.toNat ∧
      ((∃ n v, stray = some (n, v) ∧ n < s.cfg.size ∧ completedMemory stray s = s.eeMem.set n v) ∨
       ((∀ n v, stray = some (n, v) → s.cfg.size ≤ n) ∧ completedMemory stray s = s.eeMem))) := by
  unfold completedMemory
  split
  · next h => exact .inl ⟨h, rfl⟩
  · next h =>
    refine .inr ⟨Nat.le_of_not_lt h, ?_⟩
    unfold strayWrite
    split
    · next n v =>
      split
      · next hn => exact .inl ⟨n, v, rfl, hn, rfl⟩
      · next hn =>
        refine .inr ⟨?_, rfl⟩
        rintro m w ⟨⟩
        exact Nat.le_of_not_lt hn
    · exact .inr ⟨nofun, rfl⟩

/-- A completion keeps the canonical form of EE_MEM, and its addresses inside the store. -/
theorem completedMemory_wf (stray : Option (Nat × Byte)) (s : State) (hw : s.eeMem.wf = true)
    (hi : s.eeMem.within s.cfg.size = true) :
    (completedMemory stray s).wf = true ∧ (completedMemory stray s).within s.cfg.size = true := by
  rcases completedMemory_cases stray s with ⟨h, e⟩ | ⟨-, ⟨n, v, -, h, e⟩ | ⟨-, e⟩⟩ <;> rw [e]
  · exact ⟨Memory.wf_set _ _ _ hw, Memory.within_set _ _ _ _ h hi⟩
  · exact ⟨Memory.wf_set _ _ _ hw, Memory.within_set _ _ _ _ h hi⟩
  · exact ⟨hw, hi⟩

/-- A handler's EEPROM part: its own write where it makes one and EE_READY holds, and none otherwise (60_exceptions.md
R214). -/
theorem interfereEeprom_cases (e : Interference) (s : State) :
    (∃ a d, e.eeWrite = some (a, d) ∧ s.eeReady = true ∧
      interfereEeprom e s =
        { s with eear := e.eear.getD a, eedr := e.eedr.getD d, eePendAddr := a, eePendData := d, eeBusy := true,
                 eeWrCount := s.eeWrCount + 1, spmBusy := s.spmBusy || e.startSpm }) ∨
    ((e.eeWrite = none ∨ s.eeReady = false) ∧
      interfereEeprom e s =
        { s with eear := e.eear.getD s.eear, eedr := e.eedr.getD s.eedr, spmBusy := s.spmBusy || e.startSpm }) := by
  unfold interfereEeprom
  cases hw : e.eeWrite with
  | none => exact .inr ⟨.inl rfl, rfl⟩
  | some p =>
    obtain ⟨a, d⟩ := p
    cases hr : s.eeReady with
    | false =>
      have hr' : (!s.eeBusy && !s.spmBusy) = false := hr
      exact .inr ⟨.inr rfl, by simp [hr']⟩
    | true =>
      have hr' : (!s.eeBusy && !s.spmBusy) = true := hr
      exact .inl ⟨a, d, rfl, rfl, by simp [hr']⟩

/-- What an interference never changes (60_exceptions.md R214, R215). -/
theorem interfere_frame (e : Interference) (s : State) :
    (interfere e s).cfg = s.cfg ∧ (interfere e s).ie = s.ie ∧ (interfere e s).ph = s.ph ∧
    (interfere e s).cmd = s.cmd ∧ (interfere e s).sav = s.sav ∧ (interfere e s).tmp = s.tmp ∧
    (interfere e s).cur = s.cur ∧ (interfere e s).nxt = s.nxt ∧ (interfere e s).rspValid = s.rspValid ∧
    (interfere e s).rspIll = s.rspIll ∧ (interfere e s).rspData = s.rspData ∧ (interfere e s).eeMem = s.eeMem ∧
    (interfere e s).eeLatch = s.eeLatch ∧ (interfere e s).shiftBusy = s.shiftBusy ∧
    (interfere e s).shiftByte = s.shiftByte ∧ (interfere e s).wireTx = s.wireTx ∧
    (interfere e s).faults = s.faults ∧ (interfere e s).seqStopped = s.seqStopped ∧ (interfere e s).port = s.port ∧
    (interfere e s).sched = s.sched ∧ (interfere e s).again = s.again ∧
    (interfere e s).freeTurns = s.freeTurns := by
  rcases interfereEeprom_cases e (s.orErr e.errMask) with ⟨a, d, -, -, h⟩ | ⟨-, h⟩ <;>
    simp [interfere, interfereUsart, h]

/-- An interference ORs its mask into ERR. -/
@[simp] theorem interfere_err (e : Interference) (s : State) : (interfere e s).err = s.err ||| e.errMask := by
  rcases interfereEeprom_cases e (s.orErr e.errMask) with ⟨a, d, -, -, h⟩ | ⟨-, h⟩ <;>
    simp [interfere, interfereUsart, h]

/-- An interference starts no write on a busy EEPROM. -/
theorem interfere_busy (e : Interference) (s : State) (hr : s.eeReady = false) :
    (interfere e s).eeBusy = s.eeBusy ∧ (interfere e s).eePendAddr = s.eePendAddr ∧
    (interfere e s).eePendData = s.eePendData ∧ (interfere e s).eeWrCount = s.eeWrCount := by
  rcases interfereEeprom_cases e (s.orErr e.errMask) with ⟨a, d, -, hr', h⟩ | ⟨-, h⟩
  · rw [show (s.orErr e.errMask).eeReady = s.eeReady from rfl, hr] at hr'
    cases hr'
  · simp [interfere, interfereUsart, h]

/-- What an interference does to the transmit and receive sides. -/
theorem interfere_usart (e : Interference) (s : State) :
    (interfere e s).udre = (s.udre && e.transmit.isNone) ∧ (interfere e s).txc = (s.txc && e.transmit.isNone) ∧
    (interfere e s).txdr = e.transmit.getD s.txdr ∧
    (interfere e s).rxQ = (if e.consume then s.rxQ.tail else s.rxQ) := by
  rcases interfereEeprom_cases e (s.orErr e.errMask) with ⟨a, d, -, -, h⟩ | ⟨-, h⟩ <;>
    simp [interfere, interfereUsart, h]

/-- Marking an overrun keeps the number of entries. -/
@[simp] theorem markOverrun_length (q : List RxEntry) : (markOverrun q).length = q.length := by
  induction q with
  | nil => rfl
  | cons e q ih =>
    cases q with
    | nil => rfl
    | cons f q => simpa [markOverrun] using ih

/-- Marking an overrun changes the last entry only. -/
theorem markOverrun_concat (q : List RxEntry) (e : RxEntry) :
    markOverrun (q ++ [e]) = q ++ [{ e with dor := true }] := by
  induction q with
  | nil => rfl
  | cons f q ih =>
    cases q with
    | nil => rfl
    | cons g q => simpa [markOverrun] using ih

/-- A set with one more reason holds that reason and those of the set. -/
@[simp] theorem mem_addFault (r x : Fault) (l : List Fault) : x ∈ addFault r l ↔ x = r ∨ x ∈ l := by
  unfold addFault
  split
  · next h => exact ⟨.inr, fun hx => hx.elim (fun e => e ▸ h) id⟩
  · exact List.mem_cons

/-- Adding a reason lists none twice. -/
theorem addFault_nodup (r : Fault) (l : List Fault) (h : l.Nodup) : (addFault r l).Nodup := by
  unfold addFault
  split
  · exact h
  · next hr => exact List.nodup_cons.2 ⟨hr, h⟩

end Sys2Proof.Machine
end

