-- ==== Sys2Proof/Laws/PerInstr.lean ====
section
/-! SUPPORT. The statement made of every command, one lemma per constructor: the word that `encode` gives it selects the row
of the opcode map that bears its mnemonic (spec/30_encoding.md R76). -/

namespace Sys2Proof.Laws.EncodingSelectsRow

/-- The word of a command selects the row of its mnemonic (30_encoding.md R76). -/
def Statement (i : Instr) : Prop := ∃ r ∈ opcodeMap, r.mnemonic = i.mnemonic ∧ r.selects (encode i) = true

theorem csEnter : Statement .csEnter := by unfold Statement; decide
theorem errRead : Statement .errRead := by unfold Statement; decide
theorem errClear : Statement .errClear := by unfold Statement; decide
theorem eeIsReady : Statement .eeIsReady := by unfold Statement; decide
theorem usInit : Statement .usInit := by unfold Statement; decide
theorem usTxIsReady : Statement .usTxIsReady := by unfold Statement; decide
theorem usTxIsTransmitted : Statement .usTxIsTransmitted := by unfold Statement; decide
theorem usRxIsReady : Statement .usRxIsReady := by unfold Statement; decide
theorem usRxByte : Statement .usRxByte := by unfold Statement; decide
theorem usTxieOn : Statement .usTxieOn := by unfold Statement; decide
theorem usTxieOff : Statement .usTxieOff := by unfold Statement; decide
theorem usRxieOn : Statement .usRxieOn := by unfold Statement; decide
theorem usRxieOff : Statement .usRxieOff := by unfold Statement; decide

theorem csExit (t : Bool) : Statement (.csExit t) :=
  ⟨⟨"CS_EXIT", .ft, 0x02000000#32⟩, by decide, rfl, beq_iff_eq.2 (mask_wordT 0x02#8 t)⟩

theorem errSet (d : Byte) : Statement (.errSet d) :=
  ⟨⟨"ERR_SET", .fd, 0x11000000#32⟩, by decide, rfl, beq_iff_eq.2 (mask_wordD 0x11#8 d)⟩

theorem eeRead (a : Addr) : Statement (.eeRead a) :=
  ⟨⟨"EE_READ", .fa, 0x21000000#32⟩, by decide, rfl, beq_iff_eq.2 (mask_wordA 0x21#8 a)⟩

theorem eeWrite (a : Addr) (d : Byte) : Statement (.eeWrite a d) :=
  ⟨⟨"EE_WRITE", .fad, 0x22000000#32⟩, by decide, rfl, beq_iff_eq.2 (mask_wordAD 0x22#8 a d)⟩

theorem eeUpdate (a : Addr) (d : Byte) : Statement (.eeUpdate a d) :=
  ⟨⟨"EE_UPDATE", .fad, 0x23000000#32⟩, by decide, rfl, beq_iff_eq.2 (mask_wordAD 0x23#8 a d)⟩

theorem usTxByte (d : Byte) : Statement (.usTxByte d) :=
  ⟨⟨"US_TX_BYTE", .fd, 0x34000000#32⟩, by decide, rfl, beq_iff_eq.2 (mask_wordD 0x34#8 d)⟩

end Sys2Proof.Laws.EncodingSelectsRow
end

