-- ==== Sys2Proof/Laws/Step.lean ====
section
/-! SUPPORT. What one step can do, and runs of several steps. -/

namespace Sys2Proof.Machine

theorem State.upcoming_cons {s : State} {e : Event} {rest : List Event} (h : s.sched = e :: rest) :
    s.upcoming = e :: rest := by
  simp [State.upcoming, h]

theorem State.upcoming_nil {s : State} (h : s.sched = []) : s.upcoming = s.again := by simp [State.upcoming, h]

/-- The turn after the last one of the two lists is the next of the free order. -/
theorem State.taken_eq (s : State) :
    s.taken =
      { s with
        sched := s.upcoming.tail
        freeTurns := if s.upcoming = [] then s.freeTurns + 1 else s.freeTurns } := by
  unfold State.taken nextTurn
  split
  · next h =>
    have hs : s.sched = [] := by
      cases hs : s.sched with
      | nil => rfl
      | cons e rest => rw [State.upcoming_cons hs] at h; cases h
    rw [h, if_pos rfl, List.tail_nil, ← hs]
  · next e rest h => rw [h, if_neg (List.cons_ne_nil e rest)]; rfl

/-! The fields of the state with the turn taken. -/

variable (s : State)

@[simp] theorem State.taken_sched : s.taken.sched = s.upcoming.tail := by rw [State.taken_eq]
@[simp] theorem State.taken_again : s.taken.again = s.again := by rw [State.taken_eq]
@[simp] theorem State.taken_freeTurns :
    s.taken.freeTurns = if s.upcoming = [] then s.freeTurns + 1 else s.freeTurns := by rw [State.taken_eq]
@[simp] theorem State.taken_cfg : s.taken.cfg = s.cfg := by rw [State.taken_eq]
@[simp] theorem State.taken_ie : s.taken.ie = s.ie := by rw [State.taken_eq]
@[simp] theorem State.taken_err : s.taken.err = s.err := by rw [State.taken_eq]
@[simp] theorem State.taken_ph : s.taken.ph = s.ph := by rw [State.taken_eq]
@[simp] theorem State.taken_cmd : s.taken.cmd = s.cmd := by rw [State.taken_eq]
@[simp] theorem State.taken_sav : s.taken.sav = s.sav := by rw [State.taken_eq]
@[simp] theorem State.taken_tmp : s.taken.tmp = s.tmp := by rw [State.taken_eq]
@[simp] theorem State.taken_cur : s.taken.cur = s.cur := by rw [State.taken_eq]
@[simp] theorem State.taken_nxt : s.taken.nxt = s.nxt := by rw [State.taken_eq]
@[simp] theorem State.taken_rspValid : s.taken.rspValid = s.rspValid := by rw [State.taken_eq]
@[simp] theorem State.taken_rspIll : s.taken.rspIll = s.rspIll := by rw [State.taken_eq]
@[simp] theorem State.taken_rspData : s.taken.rspData = s.rspData := by rw [State.taken_eq]
@[simp] theorem State.taken_eeMem : s.taken.eeMem = s.eeMem := by rw [State.taken_eq]
@[simp] theorem State.taken_eear : s.taken.eear = s.eear := by rw [State.taken_eq]
@[simp] theorem State.taken_eedr : s.taken.eedr = s.eedr := by rw [State.taken_eq]
@[simp] theorem State.taken_eeLatch : s.taken.eeLatch = s.eeLatch := by rw [State.taken_eq]
@[simp] theorem State.taken_eeBusy : s.taken.eeBusy = s.eeBusy := by rw [State.taken_eq]
@[simp] theorem State.taken_eePendAddr : s.taken.eePendAddr = s.eePendAddr := by rw [State.taken_eq]
@[simp] theorem State.taken_eePendData : s.taken.eePendData = s.eePendData := by rw [State.taken_eq]
@[simp] theorem State.taken_spmBusy : s.taken.spmBusy = s.spmBusy := by rw [State.taken_eq]
@[simp] theorem State.taken_eeWrCount : s.taken.eeWrCount = s.eeWrCount := by rw [State.taken_eq]
@[simp] theorem State.taken_configured : s.taken.configured = s.configured := by rw [State.taken_eq]
@[simp] theorem State.taken_txen : s.taken.txen = s.txen := by rw [State.taken_eq]
@[simp] theorem State.taken_rxen : s.taken.rxen = s.rxen := by rw [State.taken_eq]
@[simp] theorem State.taken_fmt : s.taken.fmt = s.fmt := by rw [State.taken_eq]
@[simp] theorem State.taken_baud : s.taken.baud = s.baud := by rw [State.taken_eq]
@[simp] theorem State.taken_txie : s.taken.txie = s.txie := by rw [State.taken_eq]
@[simp] theorem State.taken_rxie : s.taken.rxie = s.rxie := by rw [State.taken_eq]
@[simp] theorem State.taken_udre : s.taken.udre = s.udre := by rw [State.taken_eq]
@[simp] theorem State.taken_txdr : s.taken.txdr = s.txdr := by rw [State.taken_eq]
@[simp] theorem State.taken_shiftBusy : s.taken.shiftBusy = s.shiftBusy := by rw [State.taken_eq]
@[simp] theorem State.taken_shiftByte : s.taken.shiftByte = s.shiftByte := by rw [State.taken_eq]
@[simp] theorem State.taken_txc : s.taken.txc = s.txc := by rw [State.taken_eq]
@[simp] theorem State.taken_wireTx : s.taken.wireTx = s.wireTx := by rw [State.taken_eq]
@[simp] theorem State.taken_rxQ : s.taken.rxQ = s.rxQ := by rw [State.taken_eq]
@[simp] theorem State.taken_extIrq : s.taken.extIrq = s.extIrq := by rw [State.taken_eq]
@[simp] theorem State.taken_faults : s.taken.faults = s.faults := by rw [State.taken_eq]
@[simp] theorem State.taken_seqStopped : s.taken.seqStopped = s.seqStopped := by rw [State.taken_eq]
@[simp] theorem State.taken_port : s.taken.port = s.port := by rw [State.taken_eq]
@[simp] theorem State.taken_eeReady : s.taken.eeReady = s.eeReady := by rw [State.taken_eq]; rfl
@[simp] theorem State.taken_irqEnabled : s.taken.irqEnabled = s.irqEnabled := by rw [State.taken_eq]; rfl
@[simp] theorem State.taken_validAddr (a : Addr) : s.taken.validAddr a = s.validAddr a := by rw [State.taken_eq]; rfl
@[simp] theorem State.taken_eeByte (n : Nat) : s.taken.eeByte n = s.eeByte n := by rw [State.taken_eq]; rfl

variable {s : State}

/-- What comes next stands in one of the two lists. -/
theorem State.mem_upcoming {e : Event} (h : e ∈ s.upcoming) : e ∈ s.sched ++ s.again := by
  cases hs : s.sched with
  | nil => simpa [State.upcoming_nil hs] using h
  | cons x rest =>
    rw [State.upcoming_cons hs] at h
    exact List.mem_append_left _ h

/-- The turn is the head of what comes next, or, where nothing does, the next of the free order. -/
theorem State.turn_cases (s : State) :
    (s.upcoming = [] ∧ s.turn = Config.eventAt s.freeTurns) ∨ ∃ rest, s.upcoming = s.turn :: rest := by
  unfold State.turn nextTurn
  split
  · next h => exact .inl ⟨h, rfl⟩
  · next e rest h => exact .inr ⟨rest, h⟩

/-- Nothing comes next only where both lists are empty. -/
theorem State.lists_of_upcoming_nil (h : s.upcoming = []) : s.sched = [] ∧ s.again = [] := by
  cases hs : s.sched with
  | nil => exact ⟨rfl, State.upcoming_nil hs ▸ h⟩
  | cons e rest => rw [State.upcoming_cons hs] at h; cases h

theorem State.upcoming_main (h : s.mainOnly) : s.upcoming = [.main] := (State.upcoming_nil h.1).trans h.2

theorem State.turn_main (h : s.mainOnly) : s.turn = .main := by
  simp [State.turn, nextTurn, State.upcoming_main h]

theorem State.taken_main (h : s.mainOnly) : s.taken = s := by
  rw [State.taken_eq, State.upcoming_main h, if_neg (List.cons_ne_nil _ _), List.tail_cons, ← h.1]

theorem State.turn_cons {e : Event} {rest : List Event} (h : s.sched = e :: rest) : s.turn = e := by
  simp [State.turn, nextTurn, State.upcoming_cons h]

theorem State.taken_cons {e : Event} {rest : List Event} (h : s.sched = e :: rest) :
    s.taken = { s with sched := rest } := by
  rw [State.taken_eq, State.upcoming_cons h, if_neg (List.cons_ne_nil e rest), List.tail_cons]

/-- No event that `p` names is next where none is left. -/
theorem noEvent_turn {p : Event → Bool} (h : NoEvent p s) : p s.turn = false := by
  rcases State.turn_cases s with ⟨hu, e⟩ | ⟨rest, e⟩
  · rw [e]; exact h.free (State.lists_of_upcoming_nil hu).2 0
  · exact h.listed _ (State.mem_upcoming (e ▸ List.mem_cons_self))

/-- What is left of an order of turns without such events has none. -/
theorem noEvent_of_lists {p : Event → Bool} {t : State} (h : NoEvent p s) (hs : t.sched = s.taken.sched)
    (ha : t.again = s.again) (hf : t.freeTurns = s.taken.freeTurns) : NoEvent p t where
  listed := by
    intro e he
    rw [hs, ha, State.taken_sched] at he
    rcases List.mem_append.1 he with he | he
    · exact h.listed e (State.mem_upcoming (List.mem_of_mem_tail he))
    · exact h.listed e (List.mem_append_right _ he)
  free := by
    intro hn n
    rw [hf, State.taken_freeTurns]
    split
    · have := h.free (ha ▸ hn) (1 + n)
      rwa [← Nat.add_assoc] at this
    · exact h.free (ha ▸ hn) n

/-- A step is that of the agent whose turn it is. -/
theorem step_eq (s : State) : step s = agentStep s.turn s.taken := rfl

/-- What the main line's micro-step of a command answers: its next state, with the fault recorded if it raises one. -/
theorem runCommand_next {i : Instr} {s t : State} (h : runCommand i s = .next t) :
    exec i s = .next t ∨ ∃ r, exec i s = .fault r ∧ t = (atRaise i s).recordFault r := by
  unfold runCommand at h
  split at h
  · next u hu => exact .inl (hu.trans h)
  · next r hr => exact .inr ⟨r, hr, (Host.Outcome.next.inj h).symm⟩
  · cases h

theorem runCommand_of_next {i : Instr} {s t : State} (h : exec i s = .next t) : runCommand i s = .next t := by
  simp [runCommand, h]

theorem runCommand_of_fault {i : Instr} {s : State} {r : Fault} (h : exec i s = .fault r) :
    runCommand i s = .next ((atRaise i s).recordFault r) := by
  simp [runCommand, h]

/-- What a micro-step that raises a fault wrote before it: the registers that G_ACCESS programs, or nothing. -/
theorem atRaise_cases (i : Instr) (s : State) :
    atRaise i s = s ∨ ∃ a d v, addressOf i = some a ∧ atRaise i s = { s.programEe a d with tmp := v } := by
  cases i with
  | eeWrite a d => exact .inr ⟨a, d, s.tmp, rfl, rfl⟩
  | eeUpdate a d => exact .inr ⟨a, d, _, rfl, rfl⟩
  | _ => exact .inl rfl

/-- HOST presents the next word of its program. -/
theorem hostStep_next {s t : State} (h : hostStep s = .next t) :
    (s.port = [] ∧ t = s) ∨
    ∃ w rest, s.port = w :: rest ∧
      ((∃ e, decode w = .error e ∧ t = (s.withPort rest).respondIllegal) ∨
       ∃ i, decode w = .ok i ∧ runCommand i ((s.withPort rest).accept w) = .next t) := by
  unfold hostStep at h
  cases hp : s.port with
  | nil => rw [hp] at h; exact .inl ⟨rfl, (Host.Outcome.next.inj h).symm⟩
  | cons w rest =>
    rw [hp] at h
    refine .inr ⟨w, rest, rfl, ?_⟩
    simp only [present] at h
    cases hd : decode w with
    | error e => rw [hd] at h; exact .inl ⟨e, rfl, (Host.Outcome.next.inj h).symm⟩
    | ok i => rw [hd] at h; exact .inr ⟨i, rfl, h⟩

/-- SEQ takes the micro-step of the command in flight, unless a fault has stopped it. -/
theorem seqStep_next {s t : State} (h : seqStep s = .next t) :
    (s.seqStopped = true ∧ t = s) ∨
    (s.seqStopped = false ∧ ∃ i, decode s.cmd = .ok i ∧ hasPhase i s.ph = true ∧ runCommand i s = .next t) := by
  unfold seqStep at h
  split at h
  · next hs => exact .inl ⟨hs, (Host.Outcome.next.inj h).symm⟩
  · next hs =>
    refine .inr ⟨by simpa using hs, ?_⟩
    cases hd : decode s.cmd with
    | error e => rw [hd] at h; cases h
    | ok i =>
      rw [hd] at h
      simp only at h
      split at h
      · next hp => exact ⟨i, rfl, hp, h⟩
      · cases h

/-- The main line steps as HOST in IDLE and as SEQ otherwise. -/
theorem mainStep_next {s t : State} (h : mainStep s = .next t) :
    (s.ph = .idle ∧ hostStep s = .next t) ∨ (s.ph ≠ .idle ∧ seqStep s = .next t) := by
  unfold mainStep at h
  split at h
  · next hp => exact .inl ⟨hp, h⟩
  · next hp => exact .inr ⟨hp, h⟩

/-- The fields that no command writes, in any phase. -/
theorem exec_frame {i : Instr} {s t : State} (h : exec i s = .next t) :
    t.cfg = s.cfg ∧ t.eeMem = s.eeMem ∧ t.cmd = s.cmd ∧ t.spmBusy = s.spmBusy ∧ t.shiftBusy = s.shiftBusy ∧
    t.shiftByte = s.shiftByte ∧ t.wireTx = s.wireTx ∧ t.extIrq = s.extIrq ∧ t.faults = s.faults ∧
    t.seqStopped = s.seqStopped ∧ t.port = s.port ∧ t.sched = s.sched ∧ t.again = s.again ∧
    t.freeTurns = s.freeTurns := by
  have guarded : ∀ {a v access result}, guardedAccess a v access result s = .next t →
      (∀ {u}, access s = .next u →
        u.cfg = s.cfg ∧ u.eeMem = s.eeMem ∧ u.cmd = s.cmd ∧ u.spmBusy = s.spmBusy ∧ u.shiftBusy = s.shiftBusy ∧
        u.shiftByte = s.shiftByte ∧ u.wireTx = s.wireTx ∧ u.extIrq = s.extIrq ∧ u.faults = s.faults ∧
        u.seqStopped = s.seqStopped ∧ u.port = s.port ∧ u.sched = s.sched ∧ u.again = s.again ∧
        u.freeTurns = s.freeTurns) →
      t.cfg = s.cfg ∧ t.eeMem = s.eeMem ∧ t.cmd = s.cmd ∧ t.spmBusy = s.spmBusy ∧ t.shiftBusy = s.shiftBusy ∧
      t.shiftByte = s.shiftByte ∧ t.wireTx = s.wireTx ∧ t.extIrq = s.extIrq ∧ t.faults = s.faults ∧
      t.seqStopped = s.seqStopped ∧ t.port = s.port ∧ t.sched = s.sched ∧ t.again = s.again ∧
      t.freeTurns = s.freeTurns := by
    intro a v access result hg ha
    rcases guardedAccess_next hg with ⟨-, rfl⟩ | ⟨-, rfl⟩ | ⟨-, rfl⟩ | ⟨-, rfl⟩ | ⟨-, hx⟩ | ⟨-, rfl⟩
    · rcases gValidate_cases a v s with ⟨-, e⟩ | ⟨-, e⟩ <;> rw [e] <;> simp
    · unfold gPoll; split <;> simp
    · simp [gEnter]
    · unfold gRecheck; split <;> simp
    · exact ha hx
    · simp [gExit]
  cases i with
  | eeRead a => exact guarded h fun hx => by obtain ⟨-, rfl⟩ := readAccess_next hx; simp
  | eeWrite a d => exact guarded (access := writeAccess a d) (result := fun _ => 0x00) h fun hx => by obtain ⟨-, rfl⟩ := writeAccess_next hx; simp
  | eeUpdate a d =>
    exact guarded (access := updateAccess a d) (result := fun _ => 0x00) h fun hx => by
      obtain ⟨-, ⟨-, rfl⟩ | ⟨-, -, rfl⟩⟩ := updateAccess_next hx <;> simp
  | usInit =>
    rcases atomicSection_next h with ⟨-, rfl⟩ | ⟨-, rfl⟩ | ⟨-, rfl⟩ <;> simp [initAccess]
  | usTxByte d =>
    rcases execUsTxByte_next h with ⟨-, rfl⟩ | ⟨-, rfl⟩ | ⟨-, hx⟩
    · rcases tStart_cases d s with ⟨-, -, e⟩ | ⟨-, e⟩ <;> rw [e] <;> simp
    · unfold tPoll; split <;> simp
    · obtain ⟨-, ⟨b, -, rfl⟩ | ⟨-, rfl⟩⟩ := tWrite_next hx <;> simp
  | usRxByte =>
    rcases execUsRxByte_next h with ⟨-, rfl⟩ | ⟨-, hx⟩ | ⟨-, hx⟩
    · unfold rPoll; split <;> simp
    · obtain ⟨e, q, -, rfl⟩ := rInspect_next hx; simp
    · obtain ⟨e, q, -, rfl⟩ := rRead_next hx; simp
  | csEnter => cases h; simp
  | csExit b => cases h; simp
  | errRead => cases h; simp
  | errSet d => cases h; simp
  | errClear => cases h; simp
  | eeIsReady => cases h; simp
  | usTxIsReady => cases h; simp
  | usTxIsTransmitted => cases h; simp
  | usRxIsReady => cases h; simp
  | usTxieOn => cases h; simp
  | usTxieOff => cases h; simp
  | usRxieOn => cases h; simp
  | usRxieOff => cases h; simp

/-- The model faults, where each is raised, and by which command (60_exceptions.md R210). -/
theorem exec_fault {i : Instr} {s : State} {r : Fault} (h : exec i s = .fault r) :
    (r = .eeCommitWhileBusy ∧ s.ph = .gAccess ∧ s.eeReady = false ∧ ∃ a, addressOf i = some a) ∨
    (r = .txCollision ∧ s.ph = .tWrite ∧ s.udre = false ∧ ∃ d, i = .usTxByte d) ∨
    (r = .rxEmpty ∧ (s.ph = .rInspect ∨ s.ph = .rRead) ∧ s.rxQ = [] ∧ i = .usRxByte) := by
  have guarded : ∀ {a v access result}, guardedAccess a v access result s = .fault r →
      s.ph = .gAccess ∧ access s = .fault r := by
    intro a v access result hg
    unfold guardedAccess at hg
    cases hp : s.ph <;> simp only [hp] at hg <;> simp_all
  have commits : ∀ {u : State} {f : State → State}, andThen u.commit (fun v => .next (f v)) = .fault r →
      r = .eeCommitWhileBusy ∧ u.eeReady = false := by
    intro u f hc
    cases hu : u.commit with
    | next v => rw [hu] at hc; cases hc
    | fault x => rw [hu] at hc; cases hc; exact commit_fault hu
    | refused x => rw [hu] at hc; cases hc
  cases i with
  | eeRead a =>
    obtain ⟨-, hx⟩ := guarded h
    simp only [readAccess, State.readEe] at hx
    split at hx <;> cases hx
  | eeWrite a d =>
    obtain ⟨hp, hx⟩ := guarded (access := writeAccess a d) (result := fun _ => 0x00) h
    obtain ⟨hr, hb⟩ := commits hx
    exact .inl ⟨hr, hp, hb, a, rfl⟩
  | eeUpdate a d =>
    obtain ⟨hp, hx⟩ := guarded (access := updateAccess a d) (result := fun _ => 0x00) h
    simp only [updateAccess, State.readEe] at hx
    split at hx
    · rw [andThen_of_next] at hx
      split at hx
      · obtain ⟨hr, hb⟩ := commits hx
        exact .inl ⟨hr, hp, hb, a, rfl⟩
      · cases hx
    · cases hx
  | usInit =>
    replace h : atomicSection initAccess s = .fault r := h
    unfold atomicSection at h
    cases hp : s.ph <;> simp only [hp] at h <;> cases h
  | usTxByte d =>
    replace h : execUsTxByte d s = .fault r := h
    unfold execUsTxByte at h
    cases hp : s.ph <;> simp only [hp] at h <;> try cases h
    unfold tWrite at h
    split at h
    · split at h <;> cases h
    · next hu => cases h; exact .inr (.inl ⟨rfl, rfl, by simpa using hu, d, rfl⟩)
  | usRxByte =>
    replace h : execUsRxByte s = .fault r := h
    unfold execUsRxByte at h
    cases hp : s.ph <;> simp only [hp] at h <;> try cases h
    · unfold rInspect at h
      split at h
      · next hq => cases h; exact .inr (.inr ⟨rfl, .inl rfl, hq, rfl⟩)
      · cases h
    · unfold rRead at h
      split at h
      · next hq => cases h; exact .inr (.inr ⟨rfl, .inr rfl, hq, rfl⟩)
      · cases h
  | csEnter => cases h
  | csExit b => cases h
  | errRead => cases h
  | errSet d => cases h
  | errClear => cases h
  | eeIsReady => cases h
  | usTxIsReady => cases h
  | usTxIsTransmitted => cases h
  | usRxIsReady => cases h
  | usTxieOn => cases h
  | usTxieOff => cases h
  | usRxieOn => cases h
  | usRxieOff => cases h

/-- The micro-step that HOST runs raises no fault, so the agent answers what the command does. -/
theorem runCommand_of_idle {i : Instr} {s : State} (hp : s.ph = .idle) : runCommand i s = exec i s := by
  unfold runCommand
  split
  · next h => exact h.symm
  · next r h =>
    rcases exec_fault h with ⟨-, h, -⟩ | ⟨-, h, -⟩ | ⟨-, h | h, -⟩ <;> rw [hp] at h <;> cases h
  · next h => exact h.symm

/-- The main line's micro-step of a command leaves the port and the order of turns as they are. -/
theorem runCommand_outside {i : Instr} {s t : State} (h : runCommand i s = .next t) :
    t.port = s.port ∧ t.sched = s.sched ∧ t.again = s.again ∧ t.freeTurns = s.freeTurns := by
  rcases runCommand_next h with h | ⟨r, -, rfl⟩
  · exact (exec_frame h).2.2.2.2.2.2.2.2.2.2
  · rcases atRaise_cases i s with e | ⟨a, d, v, -, e⟩ <;> rw [e] <;> exact ⟨rfl, rfl, rfl, rfl⟩

/-- HOST takes the word that it presents off the port; the main line changes nothing else of what stands outside. -/
theorem mainStep_outside {s t : State} (h : mainStep s = .next t) :
    (if s.ph = .idle ∧ s.port ≠ [] then ∃ w, s.port = w :: t.port else t.port = s.port) ∧
    t.sched = s.sched ∧ t.again = s.again ∧ t.freeTurns = s.freeTurns := by
  rcases mainStep_next h with ⟨hp, h⟩ | ⟨hp, h⟩
  · rcases hostStep_next h with ⟨hq, rfl⟩ | ⟨w, rest, hq, ⟨e, -, rfl⟩ | ⟨i, -, h⟩⟩
    · simp [hq]
    · simp [hp, hq]
    · have ho := runCommand_outside h
      simp at ho
      simp [hp, hq, ho]
  · rcases seqStep_next h with ⟨-, rfl⟩ | ⟨-, i, -, -, h⟩
    · simp [hp]
    · simp [hp, runCommand_outside h]

/-- No agent but the main line takes a word off the port, and none changes the order of turns. -/
theorem agentStep_outside {e : Event} {s t : State} (h : agentStep e s = .next t) :
    (if e = .main ∧ s.ph = .idle ∧ s.port ≠ [] then ∃ w, s.port = w :: t.port
      else ∃ extra, t.port = s.port ++ extra) ∧
    t.sched = s.sched ∧ t.again = s.again ∧ t.freeTurns = s.freeTurns := by
  have kept : ∀ {u : State}, u = t → u.port = s.port → ∃ extra, t.port = s.port ++ extra :=
    fun hu hp => ⟨[], by rw [← hu, hp, List.append_nil]⟩
  cases e with
  | main =>
    obtain ⟨hp, ho⟩ := mainStep_outside h
    refine ⟨?_, ho⟩
    simp only [true_and]
    split at hp
    · next hc => rw [if_pos hc]; exact hp
    · next hc => rw [if_neg hc]; exact ⟨[], by rw [hp, List.append_nil]⟩
  | irq x =>
    cases h
    refine ⟨kept rfl ?_, ?_⟩ <;> split <;> simp [interfere_frame x s]
  | eep x =>
    cases h
    refine ⟨kept rfl ?_, ?_⟩ <;> rcases eepStep_cases x s with ⟨-, e⟩ | ⟨-, e⟩ <;> rw [e] <;> simp
  | txHandOver => cases h; refine ⟨kept rfl ?_, ?_⟩ <;> unfold txHandOver <;> split <;> simp
  | txComplete => cases h; refine ⟨kept rfl ?_, ?_⟩ <;> unfold txComplete <;> split <;> simp
  | rxArrive x p o f =>
    cases h
    refine ⟨kept rfl ?_, ?_⟩ <;> unfold rxArrive <;> split <;> (try split) <;> simp
  | setExtIrq b => cases h; exact ⟨kept rfl rfl, rfl, rfl, rfl⟩
  | spmStart => cases h; refine ⟨kept rfl ?_, ?_⟩ <;> split <;> simp
  | spmEnd => cases h; exact ⟨kept rfl rfl, rfl, rfl, rfl⟩
  | coldReset d => cases h; exact ⟨kept rfl rfl, rfl, rfl, rfl⟩
  | warmReset d => cases h; exact ⟨kept rfl rfl, rfl, rfl, rfl⟩
  | hostWord w => cases h; exact ⟨⟨[w], rfl⟩, rfl, rfl, rfl⟩

/-- A step moves the order of turns on by the turn taken. -/
theorem step_turns {s t : State} (h : step s = .next t) :
    t.sched = s.taken.sched ∧ t.again = s.again ∧ t.freeTurns = s.taken.freeTurns := by
  obtain ⟨hs, ha, hf⟩ := (agentStep_outside (step_eq s ▸ h)).2
  exact ⟨hs, ha.trans (State.taken_again s), hf⟩

/-- A word leaves the port where HOST presents it, and nowhere else. -/
theorem step_port {s t : State} (h : step s = .next t) :
    if s.presents then ∃ w, s.port = w :: t.port else ∃ extra, t.port = s.port ++ extra := by
  have hp := (agentStep_outside (step_eq s ▸ h)).1
  simpa [State.presents, and_assoc] using hp

/-- No event that `p` names is left after a step where none was before. -/
theorem noEvent_step {p : Event → Bool} {s t : State} (hn : NoEvent p s) (h : step s = .next t) : NoEvent p t :=
  noEvent_of_lists hn (step_turns h).1 (step_turns h).2.1 (step_turns h).2.2

@[simp] theorem runSteps_zero (s : State) : runSteps 0 s = .next s := rfl

theorem runSteps_succ (k : Nat) (s : State) : runSteps (k + 1) s = andThen (step s) (runSteps k) := by
  cases h : step s <;> simp only [runSteps, Host.Core.run, andThen, Sys2Proof.core, h]

/-- A run of `k + 1` steps is a step and a run of `k`. -/
theorem runSteps_succ_next {k : Nat} {s u : State} (h : runSteps (k + 1) s = .next u) :
    ∃ t, step s = .next t ∧ runSteps k t = .next u := andThen_next (runSteps_succ k s ▸ h)

/-- A run goes on from where a shorter one ended. -/
theorem runSteps_add {j : Nat} {s t : State} (h : runSteps j s = .next t) (k : Nat) :
    runSteps (j + k) s = runSteps k t := by
  induction j generalizing s with
  | zero => cases h; rw [Nat.zero_add]
  | succ j ih =>
    obtain ⟨u, hu, hr⟩ := runSteps_succ_next h
    rw [Nat.add_right_comm, runSteps_succ, hu, andThen_of_next, ih hr]

/-- A run that comes back to its start does so again and again. -/
theorem runSteps_cycle {p : Nat} {s : State} (h : runSteps p s = .next s) (n : Nat) : runSteps (p * n) s = .next s := by
  induction n with
  | zero => rfl
  | succ n ih => rw [Nat.mul_succ, Nat.add_comm, runSteps_add h, ih]

/-- The turns follow `sched` as long as it lasts (log entry 4). -/
theorem runSteps_listed {n : Nat} {s t : State} {e : Event} (h : runSteps n s = .next t) (he : s.sched[n]? = some e) :
    t.turn = e := by
  induction n generalizing s with
  | zero =>
    obtain rfl := Host.Outcome.next.inj h
    obtain ⟨rest, hs⟩ : ∃ rest, s.sched = e :: rest := by
      cases hs : s.sched <;> simp_all
    exact State.turn_cons hs
  | succ n ih =>
    obtain ⟨u, hu, hr⟩ := runSteps_succ_next h
    refine ih hr ?_
    rw [(step_turns hu).1, State.taken_sched]
    cases hs : s.sched <;> simp_all [State.upcoming]

/-- A step takes the head off `sched`, where it has one, and leaves `again` and the free order. -/
theorem step_turns_cons {s t : State} {e : Event} {rest : List Event} (h : step s = .next t) (hs : s.sched = e :: rest) :
    t.sched = rest ∧ t.again = s.again ∧ t.freeTurns = s.freeTurns := by
  have := step_turns h
  rwa [State.taken_cons hs] at this

/-- The turns after those of `sched` follow `again`, over and over (log entry 4). -/
theorem runSteps_again {n m : Nat} {s t : State} {e : Event} (h : runSteps n s = .next t) (hn : n = s.sched.length + m)
    (he : s.again[m % s.again.length]? = some e) : t.turn = e := by
  induction n generalizing s m with
  | zero =>
    obtain rfl := Host.Outcome.next.inj h
    have hs : s.sched = [] := List.length_eq_zero_iff.1 (by omega)
    obtain rfl : m = 0 := by omega
    cases ha : s.again with
    | nil => simp [ha] at he
    | cons a l =>
      have ht : s.turn = a := by simp [State.turn, nextTurn, State.upcoming_nil hs, ha]
      simpa [ht, ha] using he
  | succ n ih =>
    obtain ⟨u, hu, hr⟩ := runSteps_succ_next h
    cases hs : s.sched with
    | cons x rest =>
      obtain ⟨h1, h2, -⟩ := step_turns_cons hu hs
      rw [hs, List.length_cons] at hn
      exact ih hr (by rw [h1]; omega) (h2 ▸ he)
    | nil =>
      obtain ⟨h1, h2, -⟩ := step_turns hu
      rw [State.taken_sched, State.upcoming_nil hs] at h1
      obtain rfl : m = n + 1 := by rw [hs, List.length_nil, Nat.zero_add] at hn; exact hn.symm
      cases ha : s.again with
      | nil => simp [ha] at he
      | cons a l =>
        rw [ha, List.tail_cons] at h1
        rw [ha, List.length_cons] at he
        by_cases hl : n < l.length
        · rw [Nat.mod_eq_of_lt (Nat.succ_lt_succ hl), List.getElem?_cons_succ] at he
          exact runSteps_listed hr (h1 ▸ he)
        · refine ih (m := n - l.length) hr (by rw [h1]; omega) ?_
          rwa [h2, ha, List.length_cons, ← Nat.add_mod_right, show n - l.length + (l.length + 1) = n + 1 by omega]

/-- Where `again` is empty, the turns after those of `sched` follow the free order (10_state.md R40; log entry 4). -/
theorem runSteps_free {n m : Nat} {s t : State} (h : runSteps n s = .next t) (hn : n = s.sched.length + m)
    (ha : s.again = []) : t.turn = Config.eventAt (s.freeTurns + m) := by
  induction n generalizing s m with
  | zero =>
    obtain rfl := Host.Outcome.next.inj h
    have hs : s.sched = [] := List.length_eq_zero_iff.1 (by omega)
    obtain rfl : m = 0 := by omega
    simp [State.turn, nextTurn, State.upcoming_nil hs, ha]
  | succ n ih =>
    obtain ⟨u, hu, hr⟩ := runSteps_succ_next h
    cases hs : s.sched with
    | cons x rest =>
      obtain ⟨h1, h2, h3⟩ := step_turns_cons hu hs
      rw [hs, List.length_cons] at hn
      rw [← h3]
      exact ih hr (by rw [h1]; omega) (h2.trans ha)
    | nil =>
      have hup : s.upcoming = [] := (State.upcoming_nil hs).trans ha
      obtain ⟨h1, h2, h3⟩ := step_turns hu
      rw [State.taken_sched, hup, List.tail_nil] at h1
      rw [State.taken_freeTurns, if_pos hup] at h3
      obtain rfl : m = n + 1 := by rw [hs, List.length_nil, Nat.zero_add] at hn; exact hn.symm
      rw [ih (m := n) hr (by simp [h1]) (h2.trans ha), h3, Nat.add_assoc, Nat.add_comm 1 n]

@[simp] theorem countSteps_zero (p : State → Bool) (s : State) : countSteps p 0 s = 0 := rfl

/-- The count of `k + 1` steps is that of the first one and of the other `k`. -/
theorem countSteps_succ {p : State → Bool} {s t : State} (h : step s = .next t) (k : Nat) :
    countSteps p (k + 1) s = (if p s then 1 else 0) + countSteps p k t := by
  simp only [countSteps, h]

/-- A property that every step keeps holds along every run. -/
theorem runSteps_induction {p : State → Prop} (hp : ∀ s t, p s → step s = .next t → p t)
    {k : Nat} {s u : State} (hs : p s) (h : runSteps k s = .next u) : p u := by
  induction k generalizing s with
  | zero => cases h; exact hs
  | succ k ih =>
    obtain ⟨t, hst, htu⟩ := runSteps_succ_next h
    exact ih (hp s t hs hst) htu

end Sys2Proof.Machine
end

