-- ==== Sys2Proof/Tests/Slice0.lean ====
section
/-! SUPPORT. The model's own tests: the well-formedness smoke test, decoding and encoding of words written out from
spec/30_encoding.md, one-step tests of the commands from the tables of spec/95_test_vectors.md, and for every obligation with
hypotheses a state that meets them. -/

namespace Sys2Proof.Tests

open Sys2Proof Sys2Proof.Machine

/-- Concrete parameters, the spec's defaults where it has one (00_scope.md R7 to R14). -/
def cfg : Config where
  size := 1024
  codeNone := 0x00
  codeEeBadAddr := 0x10
  codeUsParity := 0x20
  codeUsOverrun := 0x21
  codeUsFrame := 0x22
  eeSentinel := 0xFF
  txEn := true
  rxEn := false
  crlf := true
  charLf := 0x0A
  charCr := 0x0D
  baudDiv := 51
  rxqDepth := 1

/-- The state after reset with those parameters, interrupts enabled, EE_MEM[1023] = 0x01, and only the main line stepping. -/
def quiet : State :=
  { State.reset with
    cfg := cfg
    ie := true
    eeMem := [(5, 0xAB), (1023, 0x01)]
    again := [.main] }

/-- HOST is about to present `w`. -/
def at0 (w : Word) : State := { quiet with port := [w, 0x10000000] }

/-- `w` is in flight in phase `p`. -/
def at1 (w : Word) (p : Phase) : State := { quiet with cmd := w, ph := p, ie := !p.masked, sav := true }

/-- What `f` reads in the state that the next step leaves. -/
def after {α : Type} (s : State) (f : State → α) : Option α :=
  match step s with
  | .next t => some (f t)
  | _ => none

/-! Well-formedness: ill-formed terms are refused. -/

theorem test_wf_accepts : cfg.wellFormed = true ∧ Config.default.wellFormed = true :=
  ⟨by decide, by simp [Config.wellFormed, Config.sizeOk, Config.depthOk, Config.default]⟩
theorem test_wf_size_zero : Config.sizeOk { cfg with size := 0 } = false := by decide
theorem test_wf_size_too_big :
    Config.sizeOk { cfg with size := 65537 } = false ∧ Config.sizeOk { cfg with size := 65536 } = true := by decide
theorem test_wf_depth_zero : Config.depthOk { cfg with rxqDepth := 0 } = false := by decide
theorem test_wf_refuses : Config.wellFormed { cfg with rxqDepth := 0 } = false ∧
    Config.wellFormed { cfg with size := 0 } = false := by decide
theorem test_wf_token : fitsToken 2 = false ∧ fitsToken 1 = true := by decide
theorem test_wf_byte : fitsByte 256 = false ∧ fitsByte 255 = true := by decide
theorem test_wf_addr : fitsAddr 65536 = false ∧ fitsAddr 65535 = true := by decide

/-! Decoding: words written out from the formats of 30_encoding.md R74 and the map of R76, field by field. -/

theorem test_decode_cs :
    decode 0b00000001_0000000000000000_00000000#32 = .ok .csEnter ∧
    decode 0b00000010_0000000000000000_00000001#32 = .ok (.csExit true) ∧
    decode 0b00000010_0000000000000000_00000000#32 = .ok (.csExit false) := by decide
theorem test_decode_err :
    decode 0b00010000_0000000000000000_00000000#32 = .ok .errRead ∧
    decode 0b00010001_0000000000000000_11111111#32 = .ok (.errSet 0xFF#8) ∧
    decode 0b00010010_0000000000000000_00000000#32 = .ok .errClear := by decide
theorem test_decode_ee :
    decode 0b00100000_0000000000000000_00000000#32 = .ok .eeIsReady ∧
    decode 0b00100001_0000000000000101_00000000#32 = .ok (.eeRead 5#16) ∧
    decode 0b00100010_0000011111010000_01000010#32 = .ok (.eeWrite 2000#16 0x42#8) ∧
    decode 0b00100011_0000000000000111_00110011#32 = .ok (.eeUpdate 7#16 0x33#8) := by decide
theorem test_decode_us :
    decode 0b00110000_0000000000000000_00000000#32 = .ok .usInit ∧
    decode 0b00110001_0000000000000000_00000000#32 = .ok .usTxIsReady ∧
    decode 0b00110010_0000000000000000_00000000#32 = .ok .usTxIsTransmitted ∧
    decode 0b00110011_0000000000000000_00000000#32 = .ok .usRxIsReady ∧
    decode 0b00110100_0000000000000000_00001010#32 = .ok (.usTxByte 0x0A#8) ∧
    decode 0b00110101_0000000000000000_00000000#32 = .ok .usRxByte := by decide
theorem test_decode_toggles :
    decode 0b00110110_0000000000000000_00000000#32 = .ok .usTxieOn ∧
    decode 0b00110111_0000000000000000_00000000#32 = .ok .usTxieOff ∧
    decode 0b00111000_0000000000000000_00000000#32 = .ok .usRxieOn ∧
    decode 0b00111001_0000000000000000_00000000#32 = .ok .usRxieOff := by decide

/-- The illegal words of 95_test_vectors.md section 2.1. -/
theorem test_decode_illegal :
    ([0x00000000#32, 0x13000000#32, 0x24000000#32, 0x3A000000#32, 0xFF000000#32].all fun w =>
      decode w == .error (.reservedOpcode (opcField w))) = true ∧
    ([0x01000001#32, 0x02000002#32, 0x11000100#32, 0x21000001#32, 0x34000100#32].all fun w =>
      decode w == .error (.reservedBit (opcField w))) = true := by decide

/-- The words of the source's examples (95_test_vectors.md section 1, W9 and W10). -/
theorem test_encode_words :
    encode (.eeWrite 2000#16 0x42#8) = 0x2207D042#32 ∧ encode (.eeWrite 5#16 0xAB#8) = 0x220005AB#32 ∧
    encode (.eeRead 5#16) = 0x21000500#32 ∧ encode (.csExit true) = 0x02000001#32 := by decide

theorem test_table_word :
    decodeTableWord 32 0x2207D042 = some (.eeWrite 2000#16 0x42#8) ∧ decodeTableWord 32 0 = none := by decide

theorem test_fetch_runs : after (quiet.withFetchWord 32 0x110000A5) (fun t => (t.err, t.rspValid)) = some (0xA5, true) := by
  decide

/-! The assembler (30_encoding.md R82, R83). -/

theorem test_assemble_write : assembleLine "EE_WRITE 5, 0xAB" = .ok (.eeWrite 5#16 0xAB#8, none) := by decide
theorem test_assemble_name : assembleLine "EE_READ 0x0400 -> r1" = .ok (.eeRead 1024#16, some "r1") := by decide
theorem test_assemble_refuses : assembleLine "ERR_SET 256" = .error .outOfRange ∧
    assembleLine "ERR_SET" = .error .wrongOperands ∧ assembleLine "HALT" = .error .unknownMnemonic := by decide
theorem test_assemble_nop : (assembleLine "NOP").toOption.map (fun r => encode r.1) = some 0x11000000#32 := by decide

/-! One step of each command (95_test_vectors.md section 2). -/

theorem test_err_read : after { at0 0x10000000 with err := 0xA5 } (fun t => (t.err, t.rspData)) = some (0xA5, 0xA5) := by decide
theorem test_err_set : after { at0 0x11000023 with err := 0x10 } (fun t => (t.err, t.rspData)) = some (0x33, 0x00) := by decide
theorem test_err_clear : after { at0 0x12000000 with err := 0x33 } (fun t => (t.err, t.rspData)) = some (0x00, 0x00) := by decide
theorem test_cs_enter : after (at0 0x01000000) (fun t => (t.ie, t.rspData)) = some (false, 0x01) := by decide
theorem test_cs_enter_masked : after { at0 0x01000000 with ie := false } (fun t => (t.ie, t.rspData)) = some (false, 0x00) := by
  decide
theorem test_cs_exit : after { at0 0x02000001 with ie := false } (fun t => (t.ie, t.rspData)) = some (true, 0x00) := by decide
theorem test_cs_exit_disables : after (at0 0x02000000) (fun t => (t.ie, t.rspData)) = some (false, 0x00) := by decide
theorem test_ee_is_ready : after (at0 0x20000000) State.rspData = some 0x01 ∧
    after { at0 0x20000000 with eeBusy := true } State.rspData = some 0x00 ∧
    after { at0 0x20000000 with spmBusy := true } State.rspData = some 0x00 := by decide
theorem test_ee_read_first_invalid :
    after { at0 0x21040000 with err := 0x21 } (fun t => (t.rspData, t.err, t.ph)) = some (0xFF, 0x31, .idle) := by decide
theorem test_ee_read_last_valid : after (at1 0x2103FF00 .gAccess) (fun t => (t.tmp, t.eear, t.ph)) = some (0x01, 1023, .gExit) := by
  decide
theorem test_ee_write_invalid :
    after (at0 0x2207D042) (fun t => (t.rspData, t.err, t.eeBusy, t.eeWrCount)) = some (0x00, 0x10, false, 0) := by decide
theorem test_ee_write_commits :
    after (at1 0x2203FF00 .gAccess) (fun t => (t.eePendAddr, t.eePendData, t.eeBusy, t.eeWrCount)) =
      some (1023, 0x00, true, 1) := by decide
theorem test_ee_update_equal : after (at1 0x230005AB .gAccess) (fun t => (t.eeBusy, t.eeWrCount)) = some (false, 0) := by decide
theorem test_ee_update_differs :
    after (at1 0x230005AC .gAccess) (fun t => (t.eePendAddr, t.eePendData, t.eeBusy, t.eeWrCount)) =
      some (5, 0xAC, true, 1) := by decide
theorem test_us_init :
    after { at1 0x30000000 .aAccess with rxQ := [⟨0x55, false, true, false⟩] }
      (fun t => (t.txen, t.rxen, t.fmt, t.baud, t.rxQ)) =
      some (true, false, .f8n1, 51, [⟨0x55, false, false, false⟩]) := by decide
theorem test_us_init_exit : after (at1 0x30000000 .aExit) (fun t => (t.ie, t.ph, t.rspData)) = some (true, .idle, 0x00) := by decide
theorem test_us_tx_is_ready : after (at0 0x31000000) State.rspData = some 0x01 ∧
    after { at0 0x31000000 with udre := false } State.rspData = some 0x00 := by decide
theorem test_us_tx_is_transmitted : after (at0 0x32000000) State.rspData = some 0x00 ∧
    after { at0 0x32000000 with txc := true } State.rspData = some 0x01 := by decide
theorem test_us_rx_is_ready : after (at0 0x33000000) State.rspData = some 0x00 ∧
    after { at0 0x33000000 with rxQ := [⟨0x10, false, false, false⟩] } State.rspData = some 0x01 := by decide
theorem test_us_tx_byte_line_feed :
    after (at0 0x3400000A) (fun t => (t.cur, t.nxt, t.ph)) = some (0x0D, some 0x0A, .tPoll) ∧
    after (at0 0x3400000D) (fun t => (t.cur, t.nxt, t.ph)) = some (0x0D, none, .tPoll) := by decide
theorem test_us_tx_byte_write :
    after { at1 0x34000041 .tWrite with cur := 0x41, txc := true } (fun t => (t.txdr, t.udre, t.txc, t.ph)) =
      some (0x41, false, false, .idle) ∧
    after { at1 0x34000041 .tWrite with udre := false } (fun t => (t.faults, t.seqStopped, t.ph)) =
      some ([.txCollision], true, .tWrite) := by decide
theorem test_us_rx_byte_inspect :
    after { at1 0x35000000 .rInspect with rxQ := [⟨0x5A, true, true, true⟩] } (fun t => (t.err, t.ph)) = some (0x23, .rRead) ∧
    after { at1 0x35000000 .rInspect with rxQ := [⟨0x5A, true, false, true⟩] } (fun t => (t.err, t.ph)) =
      some (0x22, .rRead) := by decide
theorem test_us_rx_byte_read :
    after { at1 0x35000000 .rRead with rxQ := [⟨0x5A, true, true, true⟩] } (fun t => (t.rspData, t.rxQ)) = some (0x5A, []) ∧
    after (at1 0x35000000 .rRead) (fun t => (t.faults, t.seqStopped, t.ph)) = some ([.rxEmpty], true, .rRead) := by decide
theorem test_us_txie_on : after (at0 0x36000000) (fun t => (t.txie, t.rxie, t.irqReq)) = some (true, false, true) := by decide
theorem test_us_txie_off :
    after { at0 0x37000000 with txie := true, rxie := true } (fun t => (t.txie, t.rxie)) = some (false, true) := by decide
theorem test_us_rxie_on : after (at0 0x38000000) (fun t => (t.txie, t.rxie)) = some (false, true) := by decide
theorem test_us_rxie_off :
    after { at0 0x39000000 with txie := true, rxie := true } (fun t => (t.txie, t.rxie)) = some (true, false) := by decide

/-- Program P4, step 5: the re-check catches the race. -/
theorem test_recheck_catches_race :
    after { at1 0x22000311 .gRecheck with eeBusy := true } (fun t => (t.ie, t.ph)) = some (true, .gPoll) := by decide

/-! The other agents (95_test_vectors.md sections 2.5 and 2.6). -/

theorem test_arrival_overrun :
    after { quiet with rxen := true, rxQ := [⟨0x01, false, false, false⟩], sched := [.rxArrive 0x02 false false false] } State.rxQ =
      some [⟨0x01, false, true, false⟩] := by decide

/-- A draw in which every open value differs from its value before the reset. -/
def draw : ResetDraw where
  cmd := 0x12345678
  sav := true
  tmp := 1
  cur := 2
  nxt := some 3
  eear := 4
  eedr := 5
  eePendAddr := 6
  eePendData := 7
  fmt := .f8n1
  baud := 8
  txdr := 9
  shiftByte := 10
  extIrq := true
  cell := 0x99

theorem test_warm_reset :
    after { at1 0x22000311 .gExit with err := 0x31, eeWrCount := 4, sched := [.warmReset draw] }
      (fun t => (t.err, t.ie, t.eeWrCount, t.ph, t.rspValid)) = some (0x31, false, 4, .idle, false) := by decide
theorem test_cold_reset :
    after { quiet with err := 0x31, eeWrCount := 4, sched := [.coldReset draw] } (fun t => (t.err, t.ie, t.eeWrCount)) =
      some (0x00, false, 0) := by decide

/-- An interrupt handler that does nothing. -/
def noChange : Interference where
  errMask := 0
  eeWrite := none
  startSpm := false
  eear := none
  eedr := none
  transmit := none
  consume := false
  txie := none
  rxie := none
  txen := none
  rxen := none
  fmt := none
  baud := none
  configured := none
  dropExt := false

/-- Program P4, step 3: a handler starts its own write. -/
theorem test_interference_write :
    after { at1 0x22000311 .gEnter with extIrq := true, sched := [.irq { noChange with eeWrite := some (9, 0x99), dropExt := true }] }
      (fun t => (t.eePendAddr, t.eePendData, t.eeBusy, t.eeWrCount, t.ph, t.extIrq)) =
      some (9, 0x99, true, 1, .gEnter, false) := by decide

/-! Endless runs. -/

/-- EE_WRITE in G_POLL with interrupts on, a handler that makes the EEPROM busy between every G_POLL and G_ENTER, and an
environment that makes it ready again after every failed re-check. -/
def recheckForever : State :=
  { at1 0x2203FF42 .gPoll with
    extIrq := true
    again := [.main, .irq { noChange with startSpm := true }, .main, .main, .spmEnd] }

/-- The command cycles G_POLL, G_ENTER, G_RECHECK, G_POLL for ever (41_synchronizer.md R134). -/
theorem test_recheck_cycles_forever (n : Nat) :
    runSteps (5 * n) recheckForever = .next recheckForever ∧
    (∃ t, runSteps (5 * n + 2) recheckForever = .next t ∧ t.ph = .gEnter) ∧
    ∃ t, runSteps (5 * n + 3) recheckForever = .next t ∧ t.ph = .gRecheck := by
  have h : runSteps (5 * n) recheckForever = .next recheckForever := runSteps_cycle rfl n
  exact ⟨h, ⟨_, (runSteps_add h 2).trans rfl, rfl⟩, _, (runSteps_add h 3).trans rfl, rfl⟩

/-- US_TX_BYTE in T_POLL, which could go on, and a handler that runs again and again. -/
def starved : State := { at1 0x34000041 .tPoll with extIrq := true, again := [.irq noChange] }

/-- The IRQ step repeats without limit, and the command makes no step (60_exceptions.md R216). -/
theorem test_handler_starves_command (n : Nat) : starved.irqEnabled = true ∧ runSteps n starved = .next starved :=
  ⟨rfl, (Nat.one_mul n).symm ▸ runSteps_cycle (p := 1) rfl n⟩

/-- HOST polls EE_IS_READY for ever: it settles on the word and presents it, again and again (42_eeprom.md R140). -/
def polling : State :=
  { quiet with
    cmd := 0x20000000
    rspValid := true
    rspData := 0x01
    again := [.hostWord 0x20000000, .main] }

/-- HOST presents a word in every second step of an endless run (10_state.md R40). -/
theorem test_host_presents_forever (n : Nat) :
    runSteps (2 * n) polling = .next polling ∧
    ∃ t, runSteps (2 * n + 1) polling = .next t ∧ t.presents = true ∧ t.presented = some .eeIsReady := by
  have h : runSteps (2 * n) polling = .next polling := runSteps_cycle rfl n
  exact ⟨h, _, (runSteps_add h 1).trans rfl, rfl, rfl⟩

/-- Every event can have the turn, off either list. -/
theorem test_every_event_has_turn (e : Event) :
    { quiet with sched := [e] }.turn = e ∧ { quiet with again := [e, .main] }.turn = e := ⟨rfl, rfl⟩

/-- After the one turn of `sched` the two of `again` go round. -/
theorem test_again_goes_round :
    ∃ t, runSteps 4 { quiet with sched := [.spmEnd], again := [.main, .setExtIrq true] } = .next t ∧
      t.turn = .setExtIrq true ∧ t.sched = [.setExtIrq true] := ⟨_, rfl, rfl, rfl⟩

/-- From reset nothing fixes the order of turns. -/
theorem test_reset_order_is_free :
    State.reset.turn = Config.eventAt 0 ∧ State.reset.taken = { State.reset with freeTurns := 1 } := ⟨rfl, rfl⟩

/-- A fault stops SEQ until a reset, and FAULTS outlives the reset (60_exceptions.md R210, 10_state.md R38). -/
theorem test_reset_lets_sequencer_go_on :
    after { at1 0x35000000 .rRead with faults := [.rxEmpty], seqStopped := true, sched := [.warmReset draw] }
      (fun t => (t.faults, t.seqStopped, t.ph)) = some ([.rxEmpty], false, .idle) := by decide

/-- A completion at an address outside the store clears EE_BUSY. -/
theorem test_completion_outside_store :
    after { quiet with eeBusy := true, eePendAddr := 1024, sched := [.eep (some (5, 0x77))] }
      (fun t => (t.eeBusy, t.eeByte 5, t.eeByte 1023)) = some (false, 0x77, 0x01) := by decide

/-! Witnesses: for every obligation with hypotheses, concrete states and operands that meet them, a witness for each clause. -/

/-- The invariant of a state at rest. -/
theorem inv_quiet : Inv quiet := by
  refine ⟨rfl, rfl, rfl, ?_, ?_, ?_, ?_, ?_, ?_, ?_, ?_, ?_⟩ <;> simp [quiet, State.reset, cfg, Phase.masked, Phase.validated]

/-- The invariant does not see the port, the listed turns and EE_BUSY of a state at rest. -/
theorem inv_at_rest (s : State) (port : List Word) (sched : List Event) (busy : Bool) (hi : Inv s) (hp : s.ph = .idle) :
    Inv { s with port := port, sched := sched, eeBusy := busy } :=
  ⟨hi.1, hi.2, hi.3, hi.4, by simp [hp], by simp [hp], by simp [hp, Phase.validated], by simp [hp], hi.9, hi.10, hi.11, hi.12⟩

/-- The invariant of a state in each phase of EE_WRITE 1023, 0x42, the last valid address. -/
theorem inv_write (p : Phase) (h : p ∈ [Phase.gPoll, .gEnter, .gRecheck, .gAccess, .gExit]) : Inv (at1 0x2203FF42 p) := by
  have hd : decode 0x2203FF42#32 = .ok (.eeWrite 1023#16 0x42#8) := by decide
  refine ⟨rfl, rfl, rfl, ?_, fun _ => rfl, fun _ => ⟨_, hd, ?_⟩, ?_, fun _ => rfl, ?_, ?_, .nil, nofun⟩
  · intro hm
    simp only [at1] at hm ⊢
    rw [hm]
    rfl
  · rw [show (at1 0x2203FF42 p).ph = p from rfl]
    simp at h
    rcases h with h | h | h | h | h <;> rw [h] <;> rfl
  · intro i a hi ha _
    have := hd.symm.trans hi
    cases this
    cases ha
    show decide ((1023#16).toNat < 1024) = true
    decide
  · simp [at1, quiet, State.reset]
  · simp [at1, quiet, State.reset, cfg]

theorem witness_EncodeOfDecode : decode 0x21FFFF00#32 = .ok (.eeRead 0xFFFF#16) := by decide

theorem witness_DecodeFollowsOpcodeMap : ∃ r ∈ opcodeMap, 0x39000000#32 &&& r.format.mask = r.pattern := by decide

theorem witness_ZeroWordIssuesNothing :
    (at0 0).hostNow ∧ (at0 0).port = [0x00000000#32, 0x10000000#32] := ⟨⟨rfl, rfl⟩, rfl⟩

theorem witness_HostPresentsWord_illegal :
    (at0 0x3A000000).hostNow ∧ (at0 0x3A000000).port = [0x3A000000#32, 0x10000000#32] ∧
    decode 0x3A000000#32 = .error (.reservedOpcode 0x3A#8) := ⟨⟨rfl, rfl⟩, rfl, by decide⟩

theorem witness_HostPresentsWord_legal :
    (at0 0x21FFFF00).hostNow ∧ (at0 0x21FFFF00).port = [0x21FFFF00#32, 0x10000000#32] ∧
    decode 0x21FFFF00#32 = .ok (.eeRead 0xFFFF#16) := ⟨⟨rfl, rfl⟩, rfl, by decide⟩

theorem witness_SequencerRunsCommandInFlight_flight :
    ∃ t, (at1 0x2203FF42 .gRecheck).seqNow ∧ decode (at1 0x2203FF42 .gRecheck).cmd = .ok (.eeWrite 1023#16 0x42#8) ∧
      hasPhase (.eeWrite 1023#16 0x42#8) (at1 0x2203FF42 .gRecheck).ph = true ∧
      exec (.eeWrite 1023#16 0x42#8) (at1 0x2203FF42 .gRecheck).taken = .next t :=
  ⟨_, ⟨rfl, by decide, rfl⟩, by decide, by decide, rfl⟩

theorem witness_SequencerRunsCommandInFlight_fault :
    (at1 0x35000000 .rRead).seqNow ∧ decode (at1 0x35000000 .rRead).cmd = .ok .usRxByte ∧
    hasPhase .usRxByte (at1 0x35000000 .rRead).ph = true ∧ exec .usRxByte (at1 0x35000000 .rRead).taken = .fault .rxEmpty :=
  ⟨⟨rfl, by decide, rfl⟩, by decide, by decide, rfl⟩

theorem witness_SequencerRunsCommandInFlight_stopped :
    ∃ s : State, s.turn = .main ∧ s.ph ≠ .idle ∧ s.seqStopped = true :=
  ⟨{ at1 0x35000000 .rRead with faults := [.rxEmpty], seqStopped := true }, rfl, by decide, rfl⟩

theorem witness_SequencerRunsCommandInFlight_waiting : quiet.hostNow ∧ quiet.port = [] := ⟨⟨rfl, rfl⟩, rfl⟩

/-- ERR_SET 0x23 is about to be presented with ERR = 0x10; the step writes 0x33. -/
theorem witness_ErrBitsStaySet :
    ∃ s t : State, step s = .next t ∧ ¬ clearsErr s ∧ s.err = 0x10#8 ∧ t.err = 0x33#8 := by
  refine ⟨{ at0 0x11000023 with err := 0x10 }, _, rfl, ?_, rfl, rfl⟩
  rintro (h | ⟨d, h⟩)
  · exact absurd h (by decide)
  · cases h

/-- ERR_SET 0x10 and a handler's OR of 0x21, in that order, from ERR = 0x00 (95_test_vectors.md section 2.2). -/
def twoWriters : State :=
  { at0 0x11000010 with extIrq := true, sched := [.main, .irq { noChange with errMask := 0x21 }] }

theorem witness_ErrIsUnionOfMasks :
    neverClears 2 twoWriters ∧ errMasks 2 twoWriters = 0x31#8 ∧ ∃ t, runSteps 2 twoWriters = .next t ∧ t.err = 0x31#8 := by
  refine ⟨⟨?_, fun t h => ⟨?_, fun _ _ => trivial⟩⟩, by decide, _, rfl, rfl⟩
  · rintro (h | ⟨d, h⟩)
    · exact absurd h (by decide)
    · cases h
  · cases h
    rintro (h | ⟨d, h⟩)
    · exact absurd h (by decide)
    · cases h

theorem witness_CommandsIgnoreErr : Instr.usRxByte ≠ .errRead := by decide

theorem witness_PollSpinsUntilReady :
    addressOf (.eeRead 1023#16) = some 1023#16 ∧ (at1 0x2103FF00 .gPoll).ph = .gPoll := ⟨rfl, rfl⟩

theorem witness_EnterSavesAndMasks :
    addressOf (.eeUpdate 0#16 0xFF#8) = some 0#16 ∧ (at1 0x230000FF .gEnter).ph = .gEnter := ⟨rfl, rfl⟩

theorem witness_RecheckAccessesOrLeaves :
    addressOf (.eeWrite 1023#16 0x42#8) = some 1023#16 ∧
    ((at1 0x2203FF42 .gRecheck).ph = .gRecheck ∧ (at1 0x2203FF42 .gRecheck).eeBusy = false ∧
      (at1 0x2203FF42 .gRecheck).spmBusy = false) ∧
    ∃ s : State, s.ph = .gRecheck ∧ s.eeBusy = false ∧ s.spmBusy = true :=
  ⟨rfl, ⟨rfl, rfl, rfl⟩, { at1 0x2203FF42 .gRecheck with spmBusy := true }, rfl, rfl, rfl⟩

theorem witness_ExitRestoresAndResponds : (at1 0x2103FF00 .gExit).ph = .gExit ∧ (at1 0x2203FF42 .gExit).ph = .gExit := ⟨rfl, rfl⟩

/-- A whole access, four turns of the main line, with a turn of the environment between them. -/
theorem witness_MaskingIsBounded_ready :
    ∃ s t : State, Inv s ∧ s.seqStopped = false ∧ decode s.cmd = .ok (.eeWrite 1023#16 0x42#8) ∧ s.ph = .gEnter ∧
      NoEvent Event.isReset s ∧ runSteps 5 s = .next t ∧ mainTurns 5 s = 4 := by
  have h := inv_write .gEnter (by decide)
  refine ⟨{ at1 0x2203FF42 .gEnter with sched := [.main, .setExtIrq true, .main, .main, .main] }, _,
    ⟨h.1, h.2, h.3, h.4, h.5, h.6, h.7, h.8, h.9, h.10, h.11, h.12⟩, rfl, by decide, rfl, ⟨by decide, nofun⟩, rfl, by decide⟩

/-- A pass whose re-check fails, and its third turn of the main line, in G_POLL. -/
theorem witness_MaskingIsBounded_busy :
    ∃ s t : State, Inv s ∧ s.seqStopped = false ∧ decode s.cmd = .ok (.eeWrite 1023#16 0x42#8) ∧ s.ph = .gEnter ∧
      NoEvent Event.isReset s ∧ runSteps 3 s = .next t ∧ mainTurns 3 s = 3 ∧ t.ph = .gPoll := by
  have h := inv_write .gEnter (by decide)
  refine ⟨{ at1 0x2203FF42 .gEnter with eeBusy := true }, _,
    ⟨h.1, h.2, h.3, h.4, by simp [at1], h.6, h.7, h.8, h.9, h.10, h.11, h.12⟩, rfl, by decide, rfl, ⟨by decide, nofun⟩, rfl, by decide, rfl⟩

/-- G_EXIT of a command that was issued inside the host's own section. -/
theorem witness_CallerMaskIsKept :
    ∃ s t : State, s.keptMasked ∧ s.presented ≠ some (.csExit true) ∧ step s = .next t ∧ s.ph = .gExit :=
  ⟨{ at1 0x2203FF42 .gExit with sav := false }, _, ⟨rfl, fun _ => rfl⟩, by decide, rfl, rfl⟩

/-- A section that holds a section, run to its end: four steps. -/
theorem witness_NestedSectionsRestoreIe :
    ∃ s t : State, s.ph = .idle ∧ s.port = (atomic true (atomic false [])).map encode ++ [0x10000000#32] ∧
      WellNested s.ie (atomic true (atomic false [])) ∧ NoEvent Event.isReset s ∧ runSteps 4 s = .next t ∧ t.ph = .idle ∧
      presentations 4 s = (atomic true (atomic false [])).length := by
  refine ⟨{ quiet with port := [0x01000000, 0x01000000, 0x02000000, 0x02000001, 0x10000000] }, _, rfl, by decide, ?_,
    ⟨by decide, nofun⟩, rfl, rfl, by decide⟩
  have inner : WellNested false (atomic false [] ++ []) := .enclosed false [] [] (.done _) (.done _)
  exact .enclosed true _ [] inner (.done _)

/-- One command inside a section, after the CS_ENTER and before the CS_EXIT. -/
theorem witness_SectionIsMaskedThroughout :
    ∃ s t : State, s.ph = .idle ∧ s.port = (atomic s.ie [.errRead]).map encode ++ [0x10000000#32] ∧
      WellNested false [.errRead] ∧ NoEvent Event.isReset s ∧ runSteps 2 s = .next t ∧ presentations 2 s = 2 ∧
      presentations 2 s < (atomic s.ie [.errRead]).length :=
  ⟨{ quiet with port := [0x01000000, 0x10000000, 0x02000001, 0x10000000] }, _, rfl, by decide,
    .command false .errRead [] rfl (.done _), ⟨by decide, nofun⟩, rfl, by decide, by decide⟩

theorem witness_OnlyMainLineAndResetWriteIe :
    ∃ s t : State, step s = .next t ∧ s.turn ≠ .main ∧ s.turn.isReset = false :=
  ⟨{ quiet with sched := [.setExtIrq true] }, _, rfl, by decide, rfl⟩

theorem witness_ValidateChecksAddress :
    (quiet.ph = .idle ∨ quiet.ph = .gValidate) ∧ ((at1 0x2203FF42 .gValidate).ph = .idle ∨
      (at1 0x2203FF42 .gValidate).ph = .gValidate) ∧ quiet.cfg.size ≤ (1024#16).toNat ∧ (1023#16).toNat < quiet.cfg.size :=
  ⟨.inl rfl, .inr rfl, by decide, by decide⟩

theorem witness_EeReadAccessReadsByte :
    (at1 0x2103FF00 .gAccess).ph = .gAccess ∧ (1023#16).toNat < (at1 0x2103FF00 .gAccess).cfg.size := ⟨rfl, by decide⟩

theorem witness_EeWriteAccessCommits :
    (at1 0x2203FF42 .gAccess).ph = .gAccess ∧ (at1 0x2203FF42 .gAccess).eeBusy = false ∧
    (at1 0x2203FF42 .gAccess).spmBusy = false := ⟨rfl, rfl, rfl⟩

theorem witness_EeUpdateAccessCommitsIfDifferent :
    (at1 0x2303FF01 .gAccess).ph = .gAccess ∧ (1023#16).toNat < (at1 0x2303FF01 .gAccess).cfg.size ∧
    (at1 0x2303FF01 .gAccess).eeByte (1023#16).toNat = 0x01#8 ∧ (at1 0x2303FF01 .gAccess).eeByte (1023#16).toNat ≠ 0x42#8 ∧
    (at1 0x2303FF01 .gAccess).eeBusy = false ∧ (at1 0x2303FF01 .gAccess).spmBusy = false :=
  ⟨rfl, by decide, by decide, by decide, rfl, rfl⟩

theorem witness_EeReadRunsToResponse :
    (at0 0x2103FF00).mainOnly ∧ (at0 0x2103FF00).seqStopped = false ∧ (at0 0x2103FF00).ph = .idle ∧
    (at0 0x2103FF00).port = encode (.eeRead 1023#16) :: [0x10000000#32] ∧ (1023#16).toNat < (at0 0x2103FF00).cfg.size ∧
    (at0 0x2103FF00).eeBusy = false ∧ (at0 0x2103FF00).spmBusy = false :=
  ⟨⟨rfl, rfl⟩, rfl, rfl, by decide, by decide, rfl, rfl⟩

theorem witness_EeWriteRunsToResponse :
    (at0 0x2203FF42).mainOnly ∧ (at0 0x2203FF42).seqStopped = false ∧ (at0 0x2203FF42).ph = .idle ∧
    (at0 0x2203FF42).port = encode (.eeWrite 1023#16 0x42#8) :: [0x10000000#32] ∧
    (1023#16).toNat < (at0 0x2203FF42).cfg.size ∧ (at0 0x2203FF42).eeBusy = false ∧ (at0 0x2203FF42).spmBusy = false :=
  ⟨⟨rfl, rfl⟩, rfl, rfl, by decide, by decide, rfl, rfl⟩

theorem witness_EeUpdateRunsToResponse :
    (at0 0x2303FF01).mainOnly ∧ (at0 0x2303FF01).seqStopped = false ∧ (at0 0x2303FF01).ph = .idle ∧
    (at0 0x2303FF01).port = encode (.eeUpdate 1023#16 0x01#8) :: [0x10000000#32] ∧
    (1023#16).toNat < (at0 0x2303FF01).cfg.size ∧ (at0 0x2303FF01).eeBusy = false ∧ (at0 0x2303FF01).spmBusy = false ∧
    (at0 0x2303FF01).eeByte (1023#16).toNat = 0x01#8 ∧ (at0 0x23000501).eeByte (5#16).toNat ≠ 0x01#8 :=
  ⟨⟨rfl, rfl⟩, rfl, rfl, by decide, by decide, rfl, rfl, by decide, by decide⟩

/-- The last address of the store, the first one outside it without and with a byte drawn, and no write in flight. -/
theorem witness_CompletionStoresPendingByte :
    (∃ s : State, s.turn = .eep none ∧ s.eeBusy = true ∧ s.eePendAddr.toNat < s.cfg.size ∧ s.eePendAddr = 1023#16) ∧
    (∃ s : State, s.turn = .eep none ∧ s.eeBusy = true ∧ s.cfg.size ≤ s.eePendAddr.toNat ∧ s.eePendAddr = 1024#16) ∧
    (∃ s : State, s.turn = .eep (some (0, 0x99#8)) ∧ s.eeBusy = true ∧ s.cfg.size ≤ s.eePendAddr.toNat) ∧
    ∃ s : State, s.turn = .eep none ∧ s.eeBusy = false :=
  ⟨⟨{ quiet with sched := [.eep none], eeBusy := true, eePendAddr := 1023 }, rfl, rfl, by decide, rfl⟩,
   ⟨{ quiet with sched := [.eep none], eeBusy := true, eePendAddr := 1024 }, rfl, rfl, by decide, rfl⟩,
   ⟨{ quiet with sched := [.eep (some (0, 0x99))], eeBusy := true, eePendAddr := 1024 }, rfl, rfl, by decide⟩,
   { quiet with sched := [.eep none] }, rfl, rfl⟩

theorem witness_OnlyCompletionAndResetWriteEeMem :
    ∃ s t : State, step s = .next t ∧ s.turn.isEep = false ∧ s.turn.isReset = false :=
  ⟨at1 0x2203FF42 .gAccess, _, rfl, rfl, rfl⟩

/-- The write, its completion and the read, thirteen steps. -/
theorem witness_WriteThenReadReturnsByte :
    ∃ s t : State, Inv s ∧ s.ph = .idle ∧ s.port = encode (.eeWrite 1023#16 0x42#8) :: encode (.eeRead 1023#16) :: [] ∧
      (1023#16).toNat < s.cfg.size ∧ NoEvent (fun e => e.isReset || e.isIrq) s ∧ runSteps 13 s = .next t ∧ t.ph = .idle ∧
      presentations 13 s = 2 := by
  refine ⟨{ quiet with port := [0x2203FF42, 0x2103FF00], sched := [.main, .main, .main, .main, .main, .main, .eep none] }, _,
    inv_at_rest quiet _ _ false inv_quiet rfl, rfl, by decide, by decide, ⟨by decide, nofun⟩, rfl, rfl, by decide⟩

theorem witness_StepKeepsInvariant :
    ∃ t, Inv (at1 0x2203FF42 .gAccess) ∧ step (at1 0x2203FF42 .gAccess) = .next t ∧ t.eeBusy = true :=
  ⟨_, inv_write _ (by decide), rfl, rfl⟩

theorem witness_AccessFindsReadyUnmolested :
    ∃ t, Inv (at1 0x2203FF42 .gEnter) ∧ runSteps 2 (at1 0x2203FF42 .gEnter) = .next t ∧ t.ph = .gAccess :=
  ⟨_, inv_write _ (by decide), rfl, rfl⟩

theorem witness_CommitNeverFindsBusy :
    ∃ t, Inv (at1 0x2203FF42 .gEnter) ∧ runSteps 3 (at1 0x2203FF42 .gEnter) = .next t ∧ t.eeWrCount = 1 :=
  ⟨_, inv_write _ (by decide), rfl, rfl⟩

/-- The invariant of US_TX_BYTE in T_WRITE on a full data register, and of US_RX_BYTE in its last two phases. -/
theorem inv_transfer :
    Inv { at1 0x34000041 .tWrite with udre := false } ∧ Inv (at1 0x35000000 .rInspect) ∧ Inv (at1 0x35000000 .rRead) := by
  have ht : decode 0x34000041#32 = .ok (.usTxByte 0x41#8) := by decide
  have hr : decode 0x35000000#32 = .ok .usRxByte := by decide
  refine ⟨⟨rfl, rfl, rfl, ?_, ?_, fun _ => ⟨_, ht, rfl⟩, ?_, fun _ => rfl, ?_, ?_, .nil, nofun⟩,
    ⟨rfl, rfl, rfl, ?_, ?_, fun _ => ⟨_, hr, rfl⟩, ?_, fun _ => rfl, ?_, ?_, .nil, nofun⟩,
    ⟨rfl, rfl, rfl, ?_, ?_, fun _ => ⟨_, hr, rfl⟩, ?_, fun _ => rfl, ?_, ?_, .nil, nofun⟩⟩ <;>
    simp [at1, quiet, State.reset, cfg, Phase.masked, Phase.validated]

theorem witness_FaultsExactlyWhen :
    (∃ s t : State, Inv s ∧ step s = .next t ∧ s.seqNow ∧ s.ph = .tWrite ∧ s.udre = false) ∧
    (∃ s t : State, Inv s ∧ step s = .next t ∧ s.seqNow ∧ s.ph = .rInspect ∧ s.rxQ = []) ∧
    ∃ s t : State, Inv s ∧ step s = .next t ∧ s.seqNow ∧ s.ph = .rRead ∧ s.rxQ = [] :=
  ⟨⟨_, _, inv_transfer.1, rfl, ⟨rfl, by decide, rfl⟩, rfl, rfl⟩,
   ⟨_, _, inv_transfer.2.1, rfl, ⟨rfl, by decide, rfl⟩, rfl, rfl⟩, _, _, inv_transfer.2.2, rfl, ⟨rfl, by decide, rfl⟩, rfl, rfl⟩

/-- A completion at the first address outside the store, which a handler programmed, has a next state too; a state whose
turns after the first go round a list of two, in its second round; and a state whose turns are those of the free order. -/
theorem witness_EveryStepHasNextState :
    (∃ s t : State, Inv s ∧ s.sched[0]? = some (.eep none) ∧ s.eeBusy = true ∧ s.eePendAddr = 1024#16 ∧ step s = .next t ∧
      t.eeBusy = false) ∧
    (∃ s : State, Inv s ∧ s.sched = [.spmEnd] ∧ s.again[2 % s.again.length]? = some .main ∧
      s.again[3 % s.again.length]? = some (.setExtIrq true)) ∧
    ∃ s : State, Inv s ∧ s.sched = [] ∧ s.again = [] := by
  have h : Inv { quiet with eePendAddr := 1024 } := ⟨inv_quiet.1, inv_quiet.2, inv_quiet.3, inv_quiet.4, inv_quiet.5,
    inv_quiet.6, inv_quiet.7, inv_quiet.8, inv_quiet.9, inv_quiet.10, inv_quiet.11, inv_quiet.12⟩
  exact ⟨⟨_, _, inv_at_rest _ [] [.eep none] true h rfl, rfl, rfl, rfl, rfl, rfl⟩,
    ⟨{ quiet with sched := [.spmEnd], again := [.main, .setExtIrq true] },
      ⟨h.1, h.2, h.3, h.4, h.5, h.6, h.7, h.8, h.9, h.10, h.11, h.12⟩, rfl, rfl, rfl⟩,
    { quiet with again := [] }, ⟨h.1, h.2, h.3, h.4, h.5, h.6, h.7, h.8, h.9, h.10, h.11, h.12⟩, rfl, rfl⟩

/-- T_WRITE on a full data register, and two steps of the outside after it. -/
theorem witness_FaultedRunHasNoFinalState :
    ∃ s t : State, s.seqNow ∧ decode s.cmd = .ok (.usTxByte 0x41#8) ∧ hasPhase (.usTxByte 0x41#8) s.ph = true ∧
      exec (.usTxByte 0x41#8) s.taken = .fault .txCollision ∧ NoEvent Event.isReset s ∧ runSteps 3 s = .next t ∧
      t.extIrq = true ∧ t.port = s.port ++ [0x10000000#32] := by
  refine ⟨{ at1 0x34000041 .tWrite with udre := false, sched := [.main, .setExtIrq true, .hostWord 0x10000000] }, _, ⟨rfl, by decide, rfl⟩,
    by decide, by decide, rfl, ⟨by decide, nofun⟩, rfl, rfl, rfl⟩

/-- The fault that no run reaches: G_ACCESS of EE_WRITE on a busy EEPROM. -/
theorem witness_FaultedRunHasNoFinalState_commit :
    ∃ s : State, s.seqNow ∧ decode s.cmd = .ok (.eeWrite 1023#16 0x42#8) ∧ hasPhase (.eeWrite 1023#16 0x42#8) s.ph = true ∧
      exec (.eeWrite 1023#16 0x42#8) s.taken = .fault .eeCommitWhileBusy :=
  ⟨{ at1 0x2203FF42 .gAccess with eeBusy := true }, ⟨rfl, by decide, rfl⟩, by decide, by decide, rfl⟩

theorem witness_ParametersAreFixed : ∃ t, step (at0 0x30000000) = .next t ∧ t.ph = .aAccess := ⟨_, rfl, rfl⟩

theorem witness_InitPhasesConfigure :
    (quiet.ph = .idle ∨ quiet.ph = .aEnter) ∧
    ((at1 0x30000000 .aEnter).ph = .idle ∨ (at1 0x30000000 .aEnter).ph = .aEnter) ∧
    (at1 0x30000000 .aAccess).ph = .aAccess ∧ (at1 0x30000000 .aExit).ph = .aExit := ⟨.inl rfl, .inr rfl, rfl, rfl⟩

theorem witness_InitIsIdempotent :
    ∃ s : State, s.mainOnly ∧ s.seqStopped = false ∧ s.ph = .idle ∧ s.port = encode .usInit :: encode .usInit :: [] :=
  ⟨{ quiet with port := [0x30000000, 0x30000000] }, ⟨rfl, rfl⟩, rfl, rfl, rfl⟩

theorem witness_TxBytePhases :
    (quiet.ph = .idle ∨ quiet.ph = .tStart) ∧ (quiet.cfg.crlf = true ∧ 0x0A#8 = quiet.cfg.charLf) ∧
    0x0D#8 ≠ quiet.cfg.charLf ∧ (at1 0x3400000A .tPoll).ph = .tPoll ∧
    ((at1 0x3400000A .tWrite).ph = .tWrite ∧ (at1 0x3400000A .tWrite).udre = true ∧ (at1 0x3400000A .tWrite).nxt = none) ∧
    (∃ s : State, s.ph = .tWrite ∧ s.udre = false) ∧ ∃ s : State, s.ph = .tWrite ∧ s.udre = true ∧ s.nxt = some 0x0A#8 :=
  ⟨.inl rfl, ⟨rfl, rfl⟩, by decide, rfl, ⟨rfl, rfl, rfl⟩, ⟨{ at1 0x3400000A .tWrite with udre := false }, rfl, rfl⟩,
   { at1 0x3400000A .tWrite with nxt := some 0x0A }, rfl, rfl, rfl⟩

theorem witness_LineFeedSendsCrThenLf :
    ∃ s : State, s.seqStopped = false ∧ s.ph = .idle ∧ s.port = encode (.usTxByte s.cfg.charLf) :: [] ∧ s.cfg.crlf = true ∧
      s.txen = true ∧ s.udre = true ∧ s.shiftBusy = false ∧
      s.sched = [.main, .main, .main, .txHandOver, .main, .main, .txComplete, .txHandOver, .txComplete] :=
  ⟨{ quiet with
      port := [0x3400000A]
      txen := true
      sched := [.main, .main, .main, .txHandOver, .main, .main, .txComplete, .txHandOver, .txComplete] },
    rfl, rfl, by decide, rfl, rfl, rfl, rfl, rfl⟩

theorem witness_RxBytePhases :
    (quiet.ph = .idle ∨ quiet.ph = .rPoll) ∧ ((at1 0x35000000 .rRead).ph = .rInspect ∨ (at1 0x35000000 .rRead).ph = .rRead) ∧
    (at1 0x35000000 .rRead).rxQ = [] ∧
    (∃ s : State, s.ph = .rInspect ∧ s.rxQ = [⟨0x5A#8, true, true, true⟩]) ∧
    ∃ s : State, s.ph = .rRead ∧ s.rxQ = [⟨0x5A#8, false, false, false⟩] :=
  ⟨.inl rfl, .inr rfl, rfl, ⟨{ at1 0x35000000 .rInspect with rxQ := [⟨0x5A, true, true, true⟩] }, rfl, rfl⟩,
   { at1 0x35000000 .rRead with rxQ := [⟨0x5A, false, false, false⟩] }, rfl, rfl⟩

theorem witness_RxByteDeliversDespiteErrors :
    ∃ s : State, s.mainOnly ∧ s.seqStopped = false ∧ s.ph = .idle ∧ s.port = encode .usRxByte :: [] ∧
      s.rxQ = ⟨0x5A#8, true, true, true⟩ :: [] :=
  ⟨{ quiet with port := [0x35000000], rxQ := [⟨0x5A, true, true, true⟩] }, ⟨rfl, rfl⟩, rfl, rfl, rfl, rfl⟩

theorem witness_TransmitterSteps :
    (∃ s : State, s.turn = .txHandOver ∧ s.udre = false ∧ s.txen = true ∧ s.shiftBusy = false) ∧
    ∃ s : State, s.turn = .txComplete ∧ s.shiftBusy = true :=
  ⟨⟨{ quiet with sched := [.txHandOver], udre := false, txen := true }, rfl, rfl, rfl, rfl⟩,
   { quiet with sched := [.txComplete], shiftBusy := true }, rfl, rfl⟩

/-- RXQ_DEPTH = 1: an empty queue has room for one entry and a queue of one has none. -/
theorem witness_ReceiverArrival :
    (∃ s : State, s.turn = .rxArrive 0x02#8 false true false ∧ s.rxen = true ∧
      s.rxQ.length < s.cfg.rxqDepth) ∧
    (∃ s : State, s.turn = .rxArrive 0x02#8 false true false ∧ s.rxen = true ∧
      s.cfg.rxqDepth ≤ s.rxQ.length ∧ s.rxQ = [] ++ [⟨0x01#8, false, false, false⟩]) ∧
    ∃ s : State, s.turn = .rxArrive 0x02#8 false true false ∧ s.rxen = false :=
  ⟨⟨{ quiet with sched := [.rxArrive 0x02 false true false], rxen := true }, rfl, rfl, by decide⟩,
   ⟨{ quiet with
        sched := [.rxArrive 0x02 false true false]
        rxen := true
        rxQ := [⟨0x01, false, false, false⟩] }, rfl, rfl, by decide, rfl⟩,
   { quiet with sched := [.rxArrive 0x02 false true false] }, rfl, rfl⟩

theorem witness_MaskedInterruptHasNoStep :
    (∃ s : State, s.turn = .irq noChange ∧ s.ie = false ∧ s.extIrq = true) ∧
    ∃ s : State, s.turn = .irq noChange ∧ s.ie = true ∧ (s.txie = false ∧ s.rxQ = [] ∧ s.extIrq = false) :=
  ⟨⟨{ quiet with sched := [.irq noChange], ie := false, extIrq := true }, rfl, rfl, rfl⟩,
   { quiet with sched := [.irq noChange] }, rfl, rfl, rfl, rfl, rfl⟩

/-- A handler that makes every change of 60_exceptions.md R214 at once. -/
def everyChange : Interference where
  errMask := 0x41
  eeWrite := some (9, 0x99)
  startSpm := true
  eear := some 7
  eedr := none
  transmit := some 0x55
  consume := true
  txie := some true
  rxie := some true
  txen := some true
  rxen := some true
  fmt := some .f8n1
  baud := some 3
  configured := some true
  dropExt := true

theorem test_every_change :
    after { quiet with err := 0x10, txc := true, rxQ := [⟨0x01, false, false, false⟩], extIrq := true, sched := [.irq everyChange] }
      (fun t => (t.err, t.eear, t.eedr, t.eePendAddr, t.eePendData, t.eeWrCount, t.spmBusy, t.txdr, t.udre, t.txc, t.rxQ)) =
      some (0x51, 7, 0x99, 9, 0x99, 1, true, 0x55, false, false, []) ∧
    after { quiet with extIrq := true, sched := [.irq everyChange] }
      (fun t => (t.txie, t.rxie, t.txen, t.rxen, t.fmt, t.baud, t.configured, t.extIrq, t.ie)) =
      some (true, true, true, true, .f8n1, 3, true, false, true) := ⟨rfl, rfl⟩

/-- Requested on a ready EEPROM and on a busy one, with every change drawn and with none; and not requested. -/
theorem witness_InterferenceFrame :
    (∃ s : State, s.turn = .irq everyChange ∧ s.irqEnabled = true ∧
      some (9#16, 0x99#8) = if s.eeBusy = false ∧ s.spmBusy = false then everyChange.eeWrite else none) ∧
    (∃ s : State, s.turn = .irq everyChange ∧ s.irqEnabled = true ∧
      none = if s.eeBusy = false ∧ s.spmBusy = false then everyChange.eeWrite else none) ∧
    (∃ s : State, s.turn = .irq noChange ∧ s.irqEnabled = true ∧
      none = if s.eeBusy = false ∧ s.spmBusy = false then noChange.eeWrite else none) ∧
    ∃ s : State, s.turn = .irq everyChange ∧ s.irqEnabled = false ∧
      some (9#16, 0x99#8) = if s.eeBusy = false ∧ s.spmBusy = false then everyChange.eeWrite else none :=
  ⟨⟨{ quiet with sched := [.irq everyChange], extIrq := true }, rfl, rfl, rfl⟩,
   ⟨{ quiet with sched := [.irq everyChange], txie := true, spmBusy := true }, rfl, rfl, rfl⟩,
   ⟨{ quiet with
        sched := [.irq noChange]
        rxie := true
        rxQ := [⟨0x01, false, false, false⟩] }, rfl, rfl, rfl⟩,
   { quiet with sched := [.irq everyChange] }, rfl, rfl, rfl⟩

theorem witness_EnvironmentInputs :
    (∃ s : State, s.turn = .setExtIrq true) ∧ (∃ s : State, s.turn = .spmEnd) ∧
    (∃ s : State, s.turn = .spmStart ∧ s.ph = .idle) ∧
    (∃ s : State, s.turn = .spmStart ∧ s.ph ≠ .idle) ∧ ∃ s : State, s.turn = .hostWord 0x10000000#32 ∧ s.port = [] :=
  ⟨⟨{ quiet with sched := [.setExtIrq true] }, rfl⟩, ⟨{ quiet with sched := [.spmEnd], spmBusy := true }, rfl⟩,
   ⟨{ quiet with sched := [.spmStart] }, rfl, rfl⟩,
   ⟨{ at1 0x2203FF42 .gRecheck with sched := [.spmStart] }, rfl, by decide⟩,
   { quiet with sched := [.hostWord 0x10000000] }, rfl, rfl⟩

theorem witness_ResetsWriteResetValues :
    (∃ s : State, s.turn = (if true then .coldReset draw else .warmReset draw)) ∧
    ∃ s : State, s.turn = (if false then .coldReset draw else .warmReset draw) :=
  ⟨⟨{ quiet with sched := [.coldReset draw] }, rfl⟩, { quiet with sched := [.warmReset draw] }, rfl⟩

theorem witness_ResetTearsWriteInFlight :
    (∃ s t : State, s.turn = .warmReset draw ∧ step s = .next t ∧ s.eeBusy = false) ∧
    ∃ s t : State, s.turn = .coldReset draw ∧ step s = .next t ∧ s.eeBusy = true ∧ s.eePendAddr.toNat < s.cfg.size ∧
      s.eePendAddr = 1023#16 :=
  ⟨⟨{ quiet with sched := [.warmReset draw] }, _, rfl, rfl, rfl⟩,
   { quiet with sched := [.coldReset draw], eeBusy := true, eePendAddr := 1023 }, _, rfl, rfl, rfl, by decide, rfl⟩

end Sys2Proof.Tests
end

/-! SUPPORT. What the steps of the agents leave unchanged (10_state.md R40): the frame rules that the claims about single
registers of 10_state.md rest on. -/

namespace Sys2Proof.Machine

/-- `t` has the parameters, IE, the sequencer's control registers, the response flag, the enable-latch and the record of
faults of `s`: what only the main line and the resets write. -/
structure SequencerKept (s t : State) : Prop where
  cfg : t.cfg = s.cfg
  ie : t.ie = s.ie
  ph : t.ph = s.ph
  cmd : t.cmd = s.cmd
  rspValid : t.rspValid = s.rspValid
  eeLatch : t.eeLatch = s.eeLatch
  faults : t.faults = s.faults
  seqStopped : t.seqStopped = s.seqStopped

theorem SequencerKept.refl (s : State) : SequencerKept s s := ⟨rfl, rfl, rfl, rfl, rfl, rfl, rfl, rfl⟩

/-- The hand-over of UTX (43_usart.md R190). -/
theorem txHandOver_cases (s : State) :
    (s.udre = false ∧ s.txen = true ∧ s.shiftBusy = false ∧
      txHandOver s = { s with shiftByte := s.txdr, shiftBusy := true, udre := true }) ∨
    (¬ (s.udre = false ∧ s.txen = true ∧ s.shiftBusy = false) ∧ txHandOver s = s) := by
  unfold txHandOver
  split
  · next h =>
    simp only [Bool.and_eq_true, Bool.not_eq_true'] at h
    exact .inl ⟨h.1.1, h.1.2, h.2, rfl⟩
  · next h => exact .inr ⟨by simpa [and_assoc] using h, rfl⟩

/-- The end of a byte of UTX (43_usart.md R191). -/
theorem txComplete_cases (s : State) :
    (s.shiftBusy = true ∧
      txComplete s =
        { s with wireTx := s.wireTx ++ [s.shiftByte], shiftBusy := false, txc := s.txc || s.udre }) ∨
    (s.shiftBusy = false ∧ txComplete s = s) := by
  unfold txComplete
  cases s.shiftBusy <;> simp

/-- The arrival of URX (43_usart.md R192): the queue grows below RXQ_DEPTH, or its last entry is marked. -/
theorem rxArrive_cases (x : Byte) (p o f : Bool) (s : State) :
    (s.rxen = true ∧ s.rxQ.length < s.cfg.rxqDepth ∧
      rxArrive x p o f s = { s with rxQ := s.rxQ ++ [{ data := x, upe := p, dor := o, fe := f }] }) ∨
    (s.rxen = true ∧ s.cfg.rxqDepth ≤ s.rxQ.length ∧ rxArrive x p o f s = { s with rxQ := markOverrun s.rxQ }) ∨
    (s.rxen = false ∧ rxArrive x p o f s = s) := by
  unfold rxArrive
  split
  · next hr =>
    split
    · next hq => exact .inl ⟨hr, hq, rfl⟩
    · next hq => exact .inr (.inl ⟨hr, Nat.le_of_not_lt hq, rfl⟩)
  · next hr => exact .inr (.inr ⟨by simpa using hr, rfl⟩)

/-- A handler leaves the sequencer as it was (60_exceptions.md R214, R215). -/
theorem interfere_sequencerKept (e : Interference) (s : State) : SequencerKept s (interfere e s) := by
  constructor <;> simp [interfere_frame e s]

/-- No agent but the main line and the resets writes IE, the sequencer or the record of faults. -/
theorem agentStep_sequencerKept {e : Event} {s t : State} (h : agentStep e s = .next t) (hm : e ≠ .main)
    (hr : e.isReset = false) : SequencerKept s t := by
  cases e with
  | main => exact absurd rfl hm
  | coldReset d => cases hr
  | warmReset d => cases hr
  | irq x =>
    cases h
    split
    · exact interfere_sequencerKept x s
    · exact .refl s
  | eep x => cases h; rcases eepStep_cases x s with ⟨-, e⟩ | ⟨-, e⟩ <;> rw [e] <;> constructor <;> rfl
  | txHandOver => cases h; rcases txHandOver_cases s with ⟨-, -, -, e⟩ | ⟨-, e⟩ <;> rw [e] <;> constructor <;> rfl
  | txComplete => cases h; rcases txComplete_cases s with ⟨-, e⟩ | ⟨-, e⟩ <;> rw [e] <;> constructor <;> rfl
  | rxArrive x p o f =>
    cases h
    rcases rxArrive_cases x p o f s with ⟨-, -, e⟩ | ⟨-, -, e⟩ | ⟨-, e⟩ <;> rw [e] <;> constructor <;> rfl
  | setExtIrq b => cases h; constructor <;> rfl
  | spmStart => cases h; split <;> constructor <;> rfl
  | spmEnd => cases h; constructor <;> rfl
  | hostWord w => cases h; constructor <;> rfl

/-- What a micro-step wrote before its fault is neither a parameter nor PH nor a byte of EE_MEM. -/
theorem atRaise_frame (i : Instr) (s : State) :
    (atRaise i s).cfg = s.cfg ∧ (atRaise i s).ph = s.ph ∧ (atRaise i s).eeMem = s.eeMem := by
  rcases atRaise_cases i s with e | ⟨a, d, v, -, e⟩ <;> rw [e] <;> exact ⟨rfl, rfl, rfl⟩

/-- The main line's micro-step of a command writes neither the parameters nor EE_MEM, even if it raises a fault. -/
theorem runCommand_frame {i : Instr} {s t : State} (h : runCommand i s = .next t) :
    t.cfg = s.cfg ∧ t.eeMem = s.eeMem := by
  rcases runCommand_next h with h | ⟨r, -, rfl⟩
  · obtain ⟨hcfg, hmem, -⟩ := exec_frame h
    exact ⟨hcfg, hmem⟩
  · obtain ⟨hcfg, -, hmem⟩ := atRaise_frame i s
    exact ⟨hcfg, hmem⟩

/-- The main line writes neither the parameters nor EE_MEM. -/
theorem mainStep_frame {s t : State} (h : mainStep s = .next t) : t.cfg = s.cfg ∧ t.eeMem = s.eeMem := by
  rcases mainStep_next h with ⟨-, h⟩ | ⟨-, h⟩
  · rcases hostStep_next h with ⟨-, rfl⟩ | ⟨w, rest, -, ⟨e, -, rfl⟩ | ⟨i, -, h⟩⟩
    · exact ⟨rfl, rfl⟩
    · exact ⟨rfl, rfl⟩
    · obtain ⟨hcfg, hmem⟩ := runCommand_frame h
      exact ⟨hcfg, hmem⟩
  · rcases seqStep_next h with ⟨-, rfl⟩ | ⟨-, i, -, -, h⟩
    · exact ⟨rfl, rfl⟩
    · exact runCommand_frame h

/-- No agent writes the parameters (10_state.md R39). -/
theorem agentStep_cfg {e : Event} {s t : State} (h : agentStep e s = .next t) : t.cfg = s.cfg := by
  by_cases hm : e = .main
  · subst hm
    exact (mainStep_frame h).1
  · cases hr : e.isReset with
    | false => exact (agentStep_sequencerKept h hm hr).cfg
    | true => cases e <;> cases hr <;> cases h <;> rfl

/-- No agent but the EEPROM controller and the resets writes EE_MEM (10_state.md R28). -/
theorem agentStep_eeMem {e : Event} {s t : State} (h : agentStep e s = .next t) (he : e.isEep = false)
    (hr : e.isReset = false) : t.eeMem = s.eeMem := by
  cases e with
  | main => exact (mainStep_frame h).2
  | eep x => cases he
  | coldReset d => cases hr
  | warmReset d => cases hr
  | irq x =>
    cases h
    split
    · simp [interfere_frame x s]
    · rfl
  | txHandOver => cases h; rcases txHandOver_cases s with ⟨-, -, -, e⟩ | ⟨-, e⟩ <;> rw [e]
  | txComplete => cases h; rcases txComplete_cases s with ⟨-, e⟩ | ⟨-, e⟩ <;> rw [e]
  | rxArrive x p o f => cases h; rcases rxArrive_cases x p o f s with ⟨-, -, e⟩ | ⟨-, -, e⟩ | ⟨-, e⟩ <;> rw [e]
  | setExtIrq b => cases h; rfl
  | spmStart => cases h; split <;> rfl
  | spmEnd => cases h; rfl
  | hostWord w => cases h; rfl

/-- Settles O25: IE is among what the agents other than the main line and the resets leave as it was. -/
theorem onlyMainLineAndResetWriteIe : Obligations.OnlyMainLineAndResetWriteIe := by
  intro s t h hm hr
  exact (agentStep_sequencerKept (step_eq s ▸ h) hm hr).ie.trans (State.taken_ie s)

/-- Settles O35, by the frame rule of EE_MEM for each agent. -/
theorem onlyCompletionAndResetWriteEeMem : Obligations.OnlyCompletionAndResetWriteEeMem := by
  intro s t h he hr
  exact (agentStep_eeMem (step_eq s ▸ h) he hr).trans (State.taken_eeMem s)

/-- Settles O44, by the frame rule of the parameters for every agent. -/
theorem parametersAreFixed : Obligations.ParametersAreFixed := by
  intro s t h
  exact (agentStep_cfg (step_eq s ▸ h)).trans (State.taken_cfg s)

end Sys2Proof.Machine

/-! SUPPORT. The main line and the environment (10_state.md R40 to R42): which step an agent takes in its turn. -/

namespace Sys2Proof.Machine

/-- A step in the turn that `e` names is that of the agent of `e`. -/
theorem step_of_turn {s : State} {e : Event} (h : s.turn = e) : step s = agentStep e s.taken := h ▸ step_eq s

/-- With no word settled on, HOST does nothing (log entry 6). -/
theorem hostStep_of_port_nil {s : State} (h : s.port = []) : hostStep s = .next s := by
  simp [hostStep, h]

/-- A SEQ that a fault has stopped does nothing (60_exceptions.md R210). -/
theorem seqStep_of_stopped {s : State} (h : s.seqStopped = true) : seqStep s = .next s := by
  simp [seqStep, h]

/-- SEQ runs the command in CMD at its phase (10_state.md R40). -/
theorem seqStep_of_phase {s : State} {i : Instr} (hs : s.seqStopped = false) (hd : decode s.cmd = .ok i)
    (hp : hasPhase i s.ph = true) : seqStep s = runCommand i s := by
  simp [seqStep, hs, hd, hp]

theorem mainStep_of_idle {s : State} (h : s.ph = .idle) : mainStep s = hostStep s := if_pos h

theorem mainStep_of_flight {s : State} (h : s.ph ≠ .idle) : mainStep s = seqStep s := if_neg h

/-- The step of SEQ, where it has one, is the micro-step of the command in flight. -/
theorem step_of_seqNow {s : State} {i : Instr} (h : s.seqNow) (hd : decode s.cmd = .ok i)
    (hp : hasPhase i s.ph = true) : step s = runCommand i s.taken := by
  obtain ⟨hturn, hph, hrun⟩ := h
  calc step s = mainStep s.taken := step_of_turn hturn
    _ = seqStep s.taken := mainStep_of_flight (by rwa [State.taken_ph])
    _ = runCommand i s.taken :=
      seqStep_of_phase (by rwa [State.taken_seqStopped]) (by rwa [State.taken_cmd]) (by rwa [State.taken_ph])

/-- Settles O7: SEQ's step is `runCommand` of the command in flight, and the other two turns have no step. -/
theorem sequencerRunsCommandInFlight : Obligations.SequencerRunsCommandInFlight := by
  refine ⟨?runs, ?faults, ?stopped, ?wordless⟩
  case runs =>
    intro s t i hq hd hp hx
    rw [step_of_seqNow hq hd hp]
    exact runCommand_of_next hx
  case faults =>
    intro s i r hq hd hp hx
    obtain ⟨-, hph, -⟩ := atRaise_frame i s.taken
    refine ⟨_, (step_of_seqNow hq hd hp).trans (runCommand_of_fault hx), ?_, rfl, hph.trans (State.taken_ph s)⟩
    simp
  case stopped =>
    intro s hturn hph hs
    rw [step_of_turn hturn]
    exact (mainStep_of_flight (by rwa [State.taken_ph])).trans (seqStep_of_stopped (by rwa [State.taken_seqStopped]))
  case wordless =>
    intro s hn hport
    obtain ⟨hturn, hph⟩ := hn
    rw [step_of_turn hturn]
    exact (mainStep_of_idle (by rwa [State.taken_ph])).trans (hostStep_of_port_nil (by rwa [State.taken_port]))

/-- Settles O57: in each of the four turns the step is the one input's record update of the state with the turn taken. -/
theorem environmentInputs : Obligations.EnvironmentInputs := by
  intro s b
  refine ⟨step_of_turn, step_of_turn, ?start, ?word⟩
  case start =>
    intro h
    rw [step_of_turn h]
    simp only [agentStep, State.taken_ph]
    split <;> rfl
  case word =>
    intro w h
    rw [step_of_turn h, ← State.taken_port s]
    rfl

end Sys2Proof.Machine

/-! SUPPORT. Why a micro-step of a command is refused (log entries 10 and 11). -/

namespace Sys2Proof.Machine

/-- Two parts of one micro-step are refused through one of them. -/
theorem andThen_refused {o : Result} {f : State → Result} {r : Refusal} (h : andThen o f = .refused r) :
    o = .refused r ∨ ∃ u, o = .next u ∧ f u = .refused r := by
  cases o with
  | next u => exact .inr ⟨u, rfl, h⟩
  | fault x => cases h
  | refused x => exact .inl h

/-- A write's commit, and the step to G_EXIT after it, are never refused. -/
theorem commit_toPhase_not_refused {s : State} {p : Phase} {r : Refusal} :
    andThen s.commit (fun t => .next (t.toPhase p)) ≠ .refused r := by
  intro h
  rcases andThen_refused h with h | ⟨u, -, h⟩
  · exact commit_not_refused h
  · cases h

/-- The controller's read is refused only outside the store. -/
theorem readEe_refused {s : State} {a : Addr} {r : Refusal} (h : s.readEe a = .refused r) :
    r = .eeAddressAbsent ∧ s.validAddr a = false := by
  unfold State.readEe at h
  split at h
  · cases h
  · next ha => exact ⟨(Host.Outcome.refused.inj h).symm, decide_eq_false ha⟩

/-- The phases of a command with an address are those of a guarded access (41_synchronizer.md R126). -/
theorem phasesOf_of_address {i : Instr} {a : Addr} (h : addressOf i = some a) :
    phasesOf i = [.gValidate, .gPoll, .gEnter, .gRecheck, .gAccess, .gExit] := by
  cases i with
  | eeRead a => rfl
  | eeWrite a d => rfl
  | eeUpdate a d => rfl
  | _ => cases h

theorem hasPhase_of_validated {i : Instr} {a : Addr} {p : Phase} (h : addressOf i = some a)
    (hp : p.validated = true) : hasPhase i p = true := by
  rw [hasPhase, phasesOf_of_address h]
  cases p <;> simp_all [Phase.validated]

/-- A guarded access is refused at a foreign phase, or by its G_ACCESS. -/
theorem guardedAccess_refused {a : Addr} {v : Byte} {access : State → Result} {result : State → Byte} {s : State}
    {r : Refusal} {i : Instr} (hi : addressOf i = some a) (h : guardedAccess a v access result s = .refused r) :
    (r = .foreignPhase ∧ s.ph ≠ .idle ∧ hasPhase i s.ph = false) ∨ (s.ph = .gAccess ∧ access s = .refused r) := by
  unfold guardedAccess at h
  cases hp : s.ph <;> simp only [hp] at h <;> simp_all [hasPhase, phasesOf_of_address hi]

theorem tWrite_not_refused {s : State} {r : Refusal} : tWrite s ≠ .refused r := by
  unfold tWrite
  split
  · split <;> nofun
  · nofun

theorem rInspect_not_refused {s : State} {r : Refusal} : rInspect s ≠ .refused r := by
  unfold rInspect
  split <;> nofun

theorem rRead_not_refused {s : State} {r : Refusal} : rRead s ≠ .refused r := by
  unfold rRead
  split <;> nofun

/-- The two refusals of `exec`, and where each is made. -/
theorem exec_refused {i : Instr} {s : State} {r : Refusal} (h : exec i s = .refused r) :
    (r = .foreignPhase ∧ s.ph ≠ .idle ∧ hasPhase i s.ph = false) ∨
    (r = .eeAddressAbsent ∧ s.ph = .gAccess ∧ ∃ a, addressOf i = some a ∧ s.validAddr a = false) := by
  cases i with
  | eeRead a =>
    rcases guardedAccess_refused (i := .eeRead a) rfl h with h | ⟨hp, h⟩
    · exact .inl h
    · rcases andThen_refused h with h | ⟨u, -, h⟩
      · obtain ⟨hr, ha⟩ := readEe_refused h
        exact .inr ⟨hr, hp, a, rfl, ha⟩
      · cases h
  | eeWrite a d =>
    rcases guardedAccess_refused (i := .eeWrite a d) (access := writeAccess a d) (result := fun _ => 0x00) rfl h
      with h | ⟨-, h⟩
    · exact .inl h
    · exact absurd h commit_toPhase_not_refused
  | eeUpdate a d =>
    rcases guardedAccess_refused (i := .eeUpdate a d) (access := updateAccess a d) (result := fun _ => 0x00) rfl h
      with h | ⟨hp, h⟩
    · exact .inl h
    · rcases andThen_refused h with h | ⟨u, -, h⟩
      · obtain ⟨hr, ha⟩ := readEe_refused h
        exact .inr ⟨hr, hp, a, rfl, ha⟩
      · split at h
        · exact absurd h commit_toPhase_not_refused
        · cases h
  | usInit =>
    replace h : atomicSection initAccess s = .refused r := h
    unfold atomicSection at h
    cases hp : s.ph <;> simp only [hp] at h <;> simp_all [hasPhase, phasesOf]
  | usTxByte d =>
    replace h : execUsTxByte d s = .refused r := h
    unfold execUsTxByte at h
    cases hp : s.ph <;> simp only [hp] at h <;> simp_all [hasPhase, phasesOf, tWrite_not_refused]
  | usRxByte =>
    replace h : execUsRxByte s = .refused r := h
    unfold execUsRxByte at h
    cases hp : s.ph <;> simp only [hp] at h <;> simp_all [hasPhase, phasesOf, rInspect_not_refused, rRead_not_refused]
  | _ => cases h

/-- A command's micro-step at IDLE, or at a phase of its own and at a valid address, has a next state: a fault is recorded
and is no outcome (log entry 9). -/
theorem runCommand_progress {i : Instr} {s : State} (hp : s.ph = .idle ∨ hasPhase i s.ph = true)
    (ha : ∀ a, addressOf i = some a → s.ph = .gAccess → s.validAddr a = true) : ∃ t, runCommand i s = .next t := by
  cases h : exec i s with
  | next t => exact ⟨t, runCommand_of_next h⟩
  | fault r => exact ⟨_, runCommand_of_fault h⟩
  | refused r =>
    rcases exec_refused h with ⟨-, hidle, hno⟩ | ⟨-, hacc, a, haddr, hbad⟩
    · rcases hp with hp | hp
      · exact absurd hp hidle
      · rw [hno] at hp; cases hp
    · rw [ha a haddr hacc] at hbad; cases hbad

end Sys2Proof.Machine

/-! SUPPORT. Where a micro-step of a command leaves the sequencer and the peripherals that the invariant speaks of. -/

namespace Sys2Proof.Machine

/-- `t` is a later point of command `i`, in flight at `s`: PH is a phase of `i`, no response was given, and what the block's
own section and the guarded access rest on (41_synchronizer.md R126, 20_memory.md R63) was set up or carried over. -/
structure Onward (i : Instr) (s t : State) : Prop where
  phase : hasPhase i t.ph = true
  unanswered : t.rspValid = s.rspValid
  masked : t.ph.masked = true → t.ie = false ∨ (s.ph.masked = true ∧ t.ie = s.ie)
  ready : t.ph = .gAccess → t.eeReady = true
  validated : t.ph.validated = true → s.ph.validated = true ∨ ∀ a, addressOf i = some a → s.validAddr a = true

/-- The enable-latch, TXC and RX_Q of `t` are those of `s`, or changed in the direction that the invariant allows. -/
structure PeripheralsKept (s t : State) : Prop where
  latch : s.eeLatch = false → t.eeLatch = false
  txc : t.txc = true → s.txc = true ∧ t.udre = s.udre
  rxQ : t.rxQ.length ≤ s.rxQ.length

theorem peripheralsKept_of_eq {s t : State} (hl : t.eeLatch = s.eeLatch) (hu : t.udre = s.udre) (hc : t.txc = s.txc)
    (hq : t.rxQ = s.rxQ) : PeripheralsKept s t :=
  ⟨fun h => hl.trans h, fun h => ⟨hc ▸ h, hu⟩, by rw [hq]⟩

/-! The phases of a guarded access (41_synchronizer.md R126 to R131), for a command with an address. -/

section Guarded

variable {i : Instr} {a : Addr} {s : State} (hi : addressOf i = some a)

include hi

theorem gValidate_onward (v : Byte) : (gValidate a v s).ph = .idle ∨ Onward i s (gValidate a v s) := by
  rcases gValidate_cases a v s with ⟨ha, e⟩ | ⟨-, e⟩ <;> rw [e]
  · refine .inr ⟨hasPhase_of_validated hi rfl, rfl, nofun, nofun, fun _ => .inr fun b hb => ?_⟩
    obtain rfl : a = b := Option.some.inj (hi.symm.trans hb)
    exact ha
  · exact .inl rfl

theorem gPoll_onward (hp : s.ph = .gPoll) : Onward i s (gPoll s) := by
  have valid : s.ph.validated = true := by rw [hp]; rfl
  unfold gPoll
  split
  · exact ⟨hasPhase_of_validated hi rfl, rfl, nofun, nofun, fun _ => .inl valid⟩
  · exact ⟨hasPhase_of_validated hi rfl, rfl, nofun, nofun, fun _ => .inl valid⟩

theorem gEnter_onward (hp : s.ph = .gEnter) : Onward i s (gEnter s) where
  phase := hasPhase_of_validated hi rfl
  unanswered := rfl
  masked := fun _ => .inl rfl
  ready := nofun
  validated := fun _ => .inl (by rw [hp]; rfl)

theorem gRecheck_onward (hp : s.ph = .gRecheck) : Onward i s (gRecheck s) := by
  have masked : s.ph.masked = true := by rw [hp]; rfl
  have valid : s.ph.validated = true := by rw [hp]; rfl
  unfold gRecheck
  split
  · next hr =>
    exact ⟨hasPhase_of_validated hi rfl, rfl, fun _ => .inr ⟨masked, rfl⟩, fun _ => hr, fun _ => .inl valid⟩
  · exact ⟨hasPhase_of_validated hi rfl, rfl, nofun, nofun, fun _ => .inl valid⟩

/-- A micro-step of G_ACCESS to G_EXIT that leaves IE and the response as they are. -/
theorem gAccess_onward {t : State} (hp : s.ph = .gAccess)
    (ht : t.ph = .gExit ∧ t.rspValid = s.rspValid ∧ t.ie = s.ie) : Onward i s t := by
  obtain ⟨hph, hrsp, hie⟩ := ht
  exact
    { phase := hasPhase_of_validated hi (by rw [hph]; rfl)
      unanswered := hrsp
      masked := fun _ => .inr ⟨by rw [hp]; rfl, hie⟩
      ready := by rw [hph]; nofun
      validated := fun _ => .inl (by rw [hp]; rfl) }

/-- A guarded access ends or goes on to another of its phases. -/
theorem guardedAccess_onward {v : Byte} {access : State → Result} {result : State → Byte} {t : State}
    (h : guardedAccess a v access result s = .next t)
    (hx : access s = .next t → t.ph = .gExit ∧ t.rspValid = s.rspValid ∧ t.ie = s.ie) :
    t.ph = .idle ∨ Onward i s t := by
  rcases guardedAccess_next h with ⟨-, rfl⟩ | ⟨hp, rfl⟩ | ⟨hp, rfl⟩ | ⟨hp, rfl⟩ | ⟨hp, ha⟩ | ⟨-, rfl⟩
  · exact gValidate_onward hi v
  · exact .inr (gPoll_onward hi hp)
  · exact .inr (gEnter_onward hi hp)
  · exact .inr (gRecheck_onward hi hp)
  · exact .inr (gAccess_onward hi hp (hx ha))
  · exact .inl rfl

end Guarded

/-- The phases of US_INIT (43_usart.md R171): the section is open from A_ENTER to A_EXIT. -/
theorem execUsInit_onward {s t : State} (h : atomicSection initAccess s = .next t) :
    t.ph = .idle ∨ Onward .usInit s t := by
  rcases atomicSection_next h with ⟨-, rfl⟩ | ⟨hp, rfl⟩ | ⟨-, rfl⟩
  · exact .inr ⟨rfl, rfl, fun _ => .inl rfl, nofun, nofun⟩
  · exact .inr ⟨rfl, rfl, fun _ => .inr ⟨by rw [hp]; rfl, rfl⟩, nofun, nofun⟩
  · exact .inl rfl

/-- A phase outside the block's sections and the guarded access asks nothing of IE, EE_READY or the address. -/
theorem onward_of_plain_phase {i : Instr} {s t : State} (hp : hasPhase i t.ph = true) (hr : t.rspValid = s.rspValid)
    (hm : t.ph.masked = false) (hv : t.ph.validated = false) : Onward i s t where
  phase := hp
  unanswered := hr
  masked := by rw [hm]; nofun
  ready := by
    intro h
    rw [h] at hm
    cases hm
  validated := by rw [hv]; nofun

/-- The phases of US_TX_BYTE (43_usart.md R176 to R178). -/
theorem execUsTxByte_onward {d : Byte} {s t : State} (h : execUsTxByte d s = .next t) :
    t.ph = .idle ∨ Onward (.usTxByte d) s t := by
  rcases execUsTxByte_next h with ⟨-, rfl⟩ | ⟨-, rfl⟩ | ⟨-, hx⟩
  · right
    rcases tStart_cases d s with ⟨-, -, e⟩ | ⟨-, e⟩ <;> rw [e] <;> exact onward_of_plain_phase rfl rfl rfl rfl
  · right
    unfold tPoll
    split <;> exact onward_of_plain_phase rfl rfl rfl rfl
  · obtain ⟨-, ⟨b, -, rfl⟩ | ⟨-, rfl⟩⟩ := tWrite_next hx
    · exact .inr (onward_of_plain_phase rfl rfl rfl rfl)
    · exact .inl rfl

/-- The phases of US_RX_BYTE (43_usart.md R180 to R182). -/
theorem execUsRxByte_onward {s t : State} (h : execUsRxByte s = .next t) :
    t.ph = .idle ∨ Onward .usRxByte s t := by
  rcases execUsRxByte_next h with ⟨-, rfl⟩ | ⟨-, hx⟩ | ⟨-, hx⟩
  · right
    unfold rPoll
    split <;> exact onward_of_plain_phase rfl rfl rfl rfl
  · obtain ⟨e, q, -, rfl⟩ := rInspect_next hx
    exact .inr (onward_of_plain_phase rfl rfl rfl rfl)
  · obtain ⟨e, q, -, rfl⟩ := rRead_next hx
    exact .inl rfl

/-- A micro-step ends its command or leads on to another phase of it. -/
theorem exec_onward {i : Instr} {s t : State} (h : exec i s = .next t) : t.ph = .idle ∨ Onward i s t := by
  cases i with
  | eeRead a =>
    refine guardedAccess_onward (i := .eeRead a) rfl h fun hx => ?_
    obtain ⟨-, rfl⟩ := readAccess_next hx
    exact ⟨rfl, rfl, rfl⟩
  | eeWrite a d =>
    refine guardedAccess_onward (i := .eeWrite a d) (access := writeAccess a d) (result := fun _ => 0x00) rfl h
      fun hx => ?_
    obtain ⟨-, rfl⟩ := writeAccess_next hx
    exact ⟨rfl, rfl, rfl⟩
  | eeUpdate a d =>
    refine guardedAccess_onward (i := .eeUpdate a d) (access := updateAccess a d) (result := fun _ => 0x00) rfl h
      fun hx => ?_
    obtain ⟨-, ⟨-, rfl⟩ | ⟨-, -, rfl⟩⟩ := updateAccess_next hx <;> exact ⟨rfl, rfl, rfl⟩
  | usInit => exact execUsInit_onward h
  | usTxByte d => exact execUsTxByte_onward h
  | usRxByte => exact execUsRxByte_onward h
  | _ => cases h; exact .inl rfl

/-- A guarded access writes no USART register, and G_ACCESS at most disarms the latch. -/
theorem guardedAccess_peripheralsKept {a : Addr} {v : Byte} {access : State → Result} {result : State → Byte}
    {s t : State} (h : guardedAccess a v access result s = .next t)
    (hx : access s = .next t → PeripheralsKept s t) : PeripheralsKept s t := by
  rcases guardedAccess_next h with ⟨-, rfl⟩ | ⟨-, rfl⟩ | ⟨-, rfl⟩ | ⟨-, rfl⟩ | ⟨-, ha⟩ | ⟨-, rfl⟩
  · rcases gValidate_cases a v s with ⟨-, e⟩ | ⟨-, e⟩ <;> rw [e] <;> exact peripheralsKept_of_eq rfl rfl rfl rfl
  · unfold gPoll
    split <;> exact peripheralsKept_of_eq rfl rfl rfl rfl
  · exact peripheralsKept_of_eq rfl rfl rfl rfl
  · unfold gRecheck
    split <;> exact peripheralsKept_of_eq rfl rfl rfl rfl
  · exact hx ha
  · exact peripheralsKept_of_eq rfl rfl rfl rfl

/-- No command arms the latch for longer than its micro-step, sets TXC, or adds an entry to RX_Q. -/
theorem exec_peripheralsKept {i : Instr} {s t : State} (h : exec i s = .next t) : PeripheralsKept s t := by
  cases i with
  | eeRead a =>
    refine guardedAccess_peripheralsKept h fun hx => ?_
    obtain ⟨-, rfl⟩ := readAccess_next hx
    exact ⟨fun _ => rfl, fun h => ⟨h, rfl⟩, le_refl _⟩
  | eeWrite a d =>
    refine guardedAccess_peripheralsKept (access := writeAccess a d) (result := fun _ => 0x00) h fun hx => ?_
    obtain ⟨-, rfl⟩ := writeAccess_next hx
    exact ⟨fun _ => rfl, fun h => ⟨h, rfl⟩, le_refl _⟩
  | eeUpdate a d =>
    refine guardedAccess_peripheralsKept (access := updateAccess a d) (result := fun _ => 0x00) h fun hx => ?_
    obtain ⟨-, ⟨-, rfl⟩ | ⟨-, -, rfl⟩⟩ := updateAccess_next hx <;>
      exact ⟨fun _ => rfl, fun h => ⟨h, rfl⟩, le_refl _⟩
  | usInit =>
    rcases atomicSection_next h with ⟨-, rfl⟩ | ⟨-, rfl⟩ | ⟨-, rfl⟩
    · exact peripheralsKept_of_eq rfl rfl rfl rfl
    · exact ⟨fun h => h, fun h => ⟨h, rfl⟩, by simp [initAccess]⟩
    · exact peripheralsKept_of_eq rfl rfl rfl rfl
  | usTxByte d =>
    rcases execUsTxByte_next h with ⟨-, rfl⟩ | ⟨-, rfl⟩ | ⟨-, hx⟩
    · rcases tStart_cases d s with ⟨-, -, e⟩ | ⟨-, e⟩ <;> rw [e] <;> exact peripheralsKept_of_eq rfl rfl rfl rfl
    · unfold tPoll
      split <;> exact peripheralsKept_of_eq rfl rfl rfl rfl
    · obtain ⟨-, ⟨b, -, rfl⟩ | ⟨-, rfl⟩⟩ := tWrite_next hx <;> exact ⟨fun h => h, nofun, le_refl _⟩
  | usRxByte =>
    rcases execUsRxByte_next h with ⟨-, rfl⟩ | ⟨-, hx⟩ | ⟨-, hx⟩
    · unfold rPoll
      split <;> exact peripheralsKept_of_eq rfl rfl rfl rfl
    · obtain ⟨e, q, -, rfl⟩ := rInspect_next hx
      exact peripheralsKept_of_eq rfl rfl rfl rfl
    · obtain ⟨e, q, hq, rfl⟩ := rRead_next hx
      exact ⟨fun h => h, fun h => ⟨h, rfl⟩, by simp [hq]⟩
  | _ => cases h; exact peripheralsKept_of_eq rfl rfl rfl rfl

end Sys2Proof.Machine

/-! SUPPORT. The invariant along a step of each agent, and so along every run. -/

namespace Sys2Proof.Machine

/-- The part of `Inv` that does not depend on PH and the command in flight. -/
structure DataInv (s : State) : Prop where
  memCanonical : s.eeMem.wf = true
  memWithin : s.eeMem.within s.cfg.size = true
  latchOff : s.eeLatch = false
  txcIdle : s.txc = true → s.udre = true ∧ s.shiftBusy = false
  rxBounded : s.rxQ.length ≤ s.cfg.rxqDepth
  faultsSet : s.faults.Nodup

theorem Inv.data {s : State} (h : Inv s) : DataInv s := { h with }

/-- At IDLE, with SEQ not stopped, the invariant is its part about the data. -/
theorem DataInv.inv_of_idle {s : State} (h : DataInv s) (hp : s.ph = .idle) (hs : s.seqStopped = false) : Inv s :=
  { h with
    maskedIe := by rw [hp]; nofun
    accessReady := by rw [hp]; nofun
    phaseOfCommand := fun hne => absurd hp hne
    addressValid := by rw [hp]; nofun
    noResponseYet := fun hne => absurd hp hne
    stoppedInFlight := by rw [hs]; nofun }

/-- A fault that stopped SEQ left PH where it was. -/
theorem Inv.running_of_idle {s : State} (h : Inv s) (hp : s.ph = .idle) : s.seqStopped = false := by
  cases hs : s.seqStopped with
  | false => rfl
  | true => exact absurd hp (h.stoppedInFlight hs).1

/-- What leaves the sequencer alone keeps the invariant if it keeps the data's part and EE_READY in G_ACCESS. -/
theorem SequencerKept.inv {s t : State} (hk : SequencerKept s t) (hi : Inv s) (hd : DataInv t)
    (hr : s.ph = .gAccess → t.eeReady = true) : Inv t :=
  { hd with
    maskedIe := by rw [hk.ph, hk.ie]; exact hi.maskedIe
    accessReady := by rw [hk.ph]; exact hr
    phaseOfCommand := by rw [hk.ph, hk.cmd]; exact hi.phaseOfCommand
    addressValid := by
      rw [hk.ph, hk.cmd]
      simpa only [State.validAddr, hk.cfg] using hi.addressValid
    noResponseYet := by rw [hk.ph, hk.rspValid]; exact hi.noResponseYet
    stoppedInFlight := by rw [hk.seqStopped, hk.ph, hk.faults]; exact hi.stoppedInFlight }

/-- A command's micro-step that raises no fault keeps the data's part of the invariant. -/
theorem exec_keeps_dataInv {i : Instr} {s t : State} (hi : DataInv s) (h : exec i s = .next t) : DataInv t := by
  obtain ⟨hcfg, hmem, -, -, hshift, -, -, -, hfaults, -⟩ := exec_frame h
  have hk := exec_peripheralsKept h
  exact
    { memCanonical := by rw [hmem]; exact hi.memCanonical
      memWithin := by rw [hmem, hcfg]; exact hi.memWithin
      latchOff := hk.latch hi.latchOff
      txcIdle := by
        intro hc
        obtain ⟨hc, hu⟩ := hk.txc hc
        rw [hu, hshift]
        exact hi.txcIdle hc
      rxBounded := by rw [hcfg]; exact hk.rxQ.trans hi.rxBounded
      faultsSet := by rw [hfaults]; exact hi.faultsSet }

/-- A micro-step of the command in CMD, with no response present and SEQ not stopped, keeps the invariant. -/
theorem exec_keeps_inv {i : Instr} {s t : State} (hi : Inv s) (hd : decode s.cmd = .ok i) (hr : s.rspValid = false)
    (hs : s.seqStopped = false) (h : exec i s = .next t) : Inv t := by
  obtain ⟨hcfg, -, hcmd, -, -, -, -, -, -, hstop, -⟩ := exec_frame h
  have hdata := exec_keeps_dataInv hi.data h
  have hs' : t.seqStopped = false := hstop.trans hs
  have hd' : decode t.cmd = .ok i := hcmd ▸ hd
  rcases exec_onward h with hp | ho
  · exact hdata.inv_of_idle hp hs'
  · exact
      { hdata with
        maskedIe := by
          intro hm
          rcases ho.masked hm with h0 | ⟨hm, hie⟩
          · exact h0
          · exact hie.trans (hi.maskedIe hm)
        accessReady := ho.ready
        phaseOfCommand := fun _ => ⟨i, hd', ho.phase⟩
        addressValid := by
          intro j a hj haddr hv
          obtain rfl : i = j := Except.ok.inj (hd'.symm.trans hj)
          rw [State.validAddr, hcfg]
          rcases ho.validated hv with hv | hv
          · exact hi.addressValid i a hd haddr hv
          · exact hv a haddr
        noResponseYet := fun _ => ho.unanswered.trans hr
        stoppedInFlight := by rw [hs']; nofun }

/-- Recording a fault of the command in flight keeps the invariant. -/
theorem recordFault_keeps_inv {s : State} (hi : Inv s) (hp : s.ph ≠ .idle) (r : Fault) : Inv (s.recordFault r) :=
  { hi with
    faultsSet := addFault_nodup r s.faults hi.faultsSet
    stoppedInFlight := fun _ => ⟨hp, List.ne_nil_of_mem ((mem_addFault r r s.faults).2 (.inl rfl))⟩ }

/-- Under the invariant no micro-step that raises a fault wrote anything before it: `commit` finds EE_READY. -/
theorem atRaise_of_inv {i : Instr} {s : State} {r : Fault} (hi : Inv s) (h : exec i s = .fault r) :
    atRaise i s = s ∧ s.ph ≠ .idle := by
  rcases exec_fault h with ⟨-, hp, hr, -⟩ | ⟨-, hp, -, d, rfl⟩ | ⟨-, hp, -, rfl⟩
  · rw [hi.accessReady hp] at hr
    cases hr
  · exact ⟨rfl, by rw [hp]; nofun⟩
  · exact ⟨rfl, by rcases hp with hp | hp <;> rw [hp] <;> nofun⟩

/-- The main line's micro-step of the command in CMD keeps the invariant. -/
theorem runCommand_keeps_inv {i : Instr} {s t : State} (hi : Inv s) (hd : decode s.cmd = .ok i)
    (hr : s.rspValid = false) (hs : s.seqStopped = false) (h : runCommand i s = .next t) : Inv t := by
  rcases runCommand_next h with hx | ⟨r, hx, rfl⟩
  · exact exec_keeps_inv hi hd hr hs hx
  · obtain ⟨hsame, hp⟩ := atRaise_of_inv hi hx
    rw [hsame]
    exact recordFault_keeps_inv hi hp r

/-- Accepting a word keeps the invariant. -/
theorem accept_keeps_inv {s : State} (hi : Inv s) (hp : s.ph = .idle) (rest : List Word) (w : Word) :
    Inv ((s.withPort rest).accept w) :=
  DataInv.inv_of_idle { hi with } hp (hi.running_of_idle hp)

/-- The main line keeps the invariant. -/
theorem mainStep_keeps_inv {s t : State} (hi : Inv s) (h : mainStep s = .next t) : Inv t := by
  rcases mainStep_next h with ⟨hp, h⟩ | ⟨hp, h⟩
  · rcases hostStep_next h with ⟨-, rfl⟩ | ⟨w, rest, -, ⟨e, -, rfl⟩ | ⟨i, hd, h⟩⟩
    · exact hi
    · exact DataInv.inv_of_idle { hi with } hp (hi.running_of_idle hp)
    · exact runCommand_keeps_inv (accept_keeps_inv hi hp rest w) hd rfl (hi.running_of_idle hp) h
  · rcases seqStep_next h with ⟨-, rfl⟩ | ⟨hs, i, hd, -, h⟩
    · exact hi
    · exact runCommand_keeps_inv hi hd (hi.noResponseYet hp) hs h

/-- A handler, which runs only with IE = 1 and so outside the block's sections, keeps the invariant. -/
theorem interfere_keeps_inv {s : State} (hi : Inv s) (he : s.irqEnabled = true) (e : Interference) :
    Inv (interfere e s) := by
  obtain ⟨hie, -⟩ := Bool.and_eq_true_iff.1 he
  obtain ⟨hudre, htxc, -, hq⟩ := interfere_usart e s
  have hk := interfere_sequencerKept e s
  have outside : s.ph ≠ .gAccess := by
    intro hp
    rw [hi.maskedIe (by rw [hp]; rfl)] at hie
    cases hie
  refine hk.inv hi ?_ fun hp => absurd hp outside
  exact
    { memCanonical := by simpa [interfere_frame e s] using hi.memCanonical
      memWithin := by simpa [interfere_frame e s] using hi.memWithin
      latchOff := hk.eeLatch.trans hi.latchOff
      txcIdle := by
        rw [htxc, hudre]
        simp only [interfere_frame e s, Bool.and_eq_true]
        intro ⟨hc, hn⟩
        obtain ⟨hu, hb⟩ := hi.txcIdle hc
        exact ⟨⟨hu, hn⟩, hb⟩
      rxBounded := by
        rw [hq, hk.cfg]
        split
        · exact (List.length_tail ▸ Nat.sub_le _ _).trans hi.rxBounded
        · exact hi.rxBounded
      faultsSet := by rw [hk.faults]; exact hi.faultsSet }

/-- A completion keeps the invariant: it only makes the EEPROM ready. -/
theorem eepStep_keeps_inv {s : State} (hi : Inv s) (stray : Option (Nat × Byte)) : Inv (eepStep stray s) := by
  rcases eepStep_cases stray s with ⟨hb, e⟩ | ⟨-, e⟩ <;> rw [e]
  · obtain ⟨hw, hin⟩ := completedMemory_wf stray s hi.memCanonical hi.memWithin
    refine { hi with memCanonical := hw, memWithin := hin, accessReady := fun hp => ?_ }
    have hr := hi.accessReady hp
    simp [State.eeReady, hb] at hr
  · exact hi

/-- Both resets put EE_MEM in canonical form and inside the store (70_reset_and_hazards.md R236). -/
theorem resetMemory_wf {s : State} (hi : Inv s) (d : ResetDraw) :
    (resetMemory d s).wf = true ∧ (resetMemory d s).within s.cfg.size = true := by
  unfold resetMemory
  split
  · next h => exact ⟨Memory.wf_set _ _ _ hi.memCanonical, Memory.within_set _ _ _ _ h.2 hi.memWithin⟩
  · exact ⟨hi.memCanonical, hi.memWithin⟩

theorem warmReset_keeps_inv {s : State} (hi : Inv s) (d : ResetDraw) : Inv (warmReset d s) := by
  obtain ⟨hw, hin⟩ := resetMemory_wf hi d
  exact DataInv.inv_of_idle ⟨hw, hin, rfl, nofun, Nat.zero_le _, hi.faultsSet⟩ rfl rfl

theorem coldReset_keeps_inv {s : State} (hi : Inv s) (d : ResetDraw) : Inv (coldReset d s) :=
  { warmReset_keeps_inv hi d with }

theorem txHandOver_keeps_inv {s : State} (hi : Inv s) : Inv (txHandOver s) := by
  rcases txHandOver_cases s with ⟨hu, -, -, e⟩ | ⟨-, e⟩ <;> rw [e]
  · refine { hi with txcIdle := fun hc => ?_ }
    rw [(hi.txcIdle hc).1] at hu
    cases hu
  · exact hi

theorem txComplete_keeps_inv {s : State} (hi : Inv s) : Inv (txComplete s) := by
  rcases txComplete_cases s with ⟨-, e⟩ | ⟨-, e⟩ <;> rw [e]
  · refine { hi with txcIdle := fun hc => ⟨?_, rfl⟩ }
    rcases Bool.or_eq_true_iff.1 hc with hc | hu
    · exact (hi.txcIdle hc).1
    · exact hu
  · exact hi

theorem rxArrive_keeps_inv {s : State} (hi : Inv s) (x : Byte) (p o f : Bool) : Inv (rxArrive x p o f s) := by
  rcases rxArrive_cases x p o f s with ⟨-, hq, e⟩ | ⟨-, -, e⟩ | ⟨-, e⟩ <;> rw [e]
  · exact { hi with rxBounded := by simpa using hq }
  · exact { hi with rxBounded := by simpa using hi.rxBounded }
  · exact hi

/-- Every agent's step keeps the invariant. -/
theorem agentStep_keeps_inv {e : Event} {s t : State} (hi : Inv s) (h : agentStep e s = .next t) : Inv t := by
  cases e with
  | main => exact mainStep_keeps_inv hi h
  | irq x =>
    cases h
    split
    · next he => exact interfere_keeps_inv hi he x
    · exact hi
  | eep x => cases h; exact eepStep_keeps_inv hi x
  | txHandOver => cases h; exact txHandOver_keeps_inv hi
  | txComplete => cases h; exact txComplete_keeps_inv hi
  | rxArrive x p o f => cases h; exact rxArrive_keeps_inv hi x p o f
  | setExtIrq b => cases h; exact { hi with }
  | spmStart =>
    cases h
    split
    · next hp => exact DataInv.inv_of_idle { hi with } hp (hi.running_of_idle hp)
    · exact hi
  | spmEnd =>
    cases h
    refine { hi with accessReady := fun hp => ?_ }
    obtain ⟨hb, -⟩ := Bool.and_eq_true_iff.1 (hi.accessReady hp)
    exact Bool.and_eq_true_iff.2 ⟨hb, rfl⟩
  | coldReset d => cases h; exact coldReset_keeps_inv hi d
  | warmReset d => cases h; exact warmReset_keeps_inv hi d
  | hostWord w => cases h; exact { hi with }

/-- Taking a turn changes nothing that the invariant speaks of. -/
theorem taken_keeps_inv {s : State} (hi : Inv s) : Inv s.taken := by
  rw [State.taken_eq]
  exact { hi with }

/-- The invariant is inductive. -/
theorem step_keeps_inv {s t : State} (hi : Inv s) (h : step s = .next t) : Inv t :=
  agentStep_keeps_inv (taken_keeps_inv hi) (step_eq s ▸ h)

end Sys2Proof.Machine

/-! SUPPORT. Progress: under the invariant no step is refused. -/

namespace Sys2Proof.Machine

theorem hostStep_progress {s : State} (hp : s.ph = .idle) : ∃ t, hostStep s = .next t := by
  cases hq : s.port with
  | nil => exact ⟨s, hostStep_of_port_nil hq⟩
  | cons w rest =>
    simp only [hostStep, hq, present]
    cases decode w with
    | error e => exact ⟨_, rfl⟩
    | ok i =>
      refine runCommand_progress (.inl hp) fun a _ hacc => ?_
      rw [show s.ph = .gAccess from hacc] at hp
      cases hp

theorem seqStep_progress {s : State} (hi : Inv s) (hp : s.ph ≠ .idle) : ∃ t, seqStep s = .next t := by
  cases hs : s.seqStopped with
  | true => exact ⟨s, seqStep_of_stopped hs⟩
  | false =>
    obtain ⟨i, hd, hph⟩ := hi.phaseOfCommand hp
    rw [seqStep_of_phase hs hd hph]
    exact runCommand_progress (.inr hph) fun a haddr hacc => hi.addressValid i a hd haddr (by rw [hacc]; rfl)

/-- Under the invariant every agent's step has a next state: only the main line could be refused one. -/
theorem agentStep_progress {s : State} (hi : Inv s) (e : Event) : ∃ t, agentStep e s = .next t := by
  cases e with
  | main =>
    rw [agentStep]
    by_cases hp : s.ph = .idle
    · rw [mainStep_of_idle hp]; exact hostStep_progress hp
    · rw [mainStep_of_flight hp]; exact seqStep_progress hi hp
  | _ => exact ⟨_, rfl⟩

theorem step_progress {s : State} (hi : Inv s) : ∃ t, step s = .next t := agentStep_progress (taken_keeps_inv hi) s.turn

/-- Under the invariant there is a run of every length. -/
theorem runSteps_progress {s : State} (hi : Inv s) (n : Nat) : ∃ t, runSteps n s = .next t := by
  induction n generalizing s with
  | zero => exact ⟨s, rfl⟩
  | succ n ih =>
    obtain ⟨u, hu⟩ := step_progress hi
    rw [runSteps_succ, hu]
    exact ih (step_keeps_inv hi hu)

/-- Settles O42: progress by the invariant, and the turns of the run by the laws of `sched`, `again` and the free order. -/
theorem everyStepHasNextState : Obligations.EveryStepHasNextState := by
  refine ⟨fun s => ?_, fun s hi => ⟨step_progress hi, fun n => ?_⟩⟩
  · rw [State.taken_eq]
  · obtain ⟨t, ht⟩ := runSteps_progress hi n
    exact ⟨t, ht, fun e he => runSteps_listed ht he, fun m hn =>
      ⟨fun e he => runSteps_again ht hn he, fun ha => runSteps_free ht hn ha⟩⟩

end Sys2Proof.Machine

/-! SUPPORT. The invariant at reset and along every run: the guarantee of 20_memory.md R63. -/

namespace Sys2Proof.Machine

theorem State.eeReady_iff (s : State) : s.eeReady = true ↔ s.eeBusy = false ∧ s.spmBusy = false := by
  simp [State.eeReady]

/-- The invariant holds along every run that starts under it. -/
theorem runSteps_keeps_inv {k : Nat} {s t : State} (hi : Inv s) (h : runSteps k s = .next t) : Inv t :=
  runSteps_induction (fun _ _ => step_keeps_inv) hi h

/-- Settles O38: the invariant is inductive. -/
theorem stepKeepsInvariant : Obligations.StepKeepsInvariant := fun _ _ => step_keeps_inv

/-- Settles O39: G_ACCESS is a masked phase that the invariant gives EE_READY. -/
theorem accessFindsReadyUnmolested : Obligations.AccessFindsReadyUnmolested := by
  intro k s t hi h hp
  have ht := runSteps_keeps_inv hi h
  obtain ⟨hbusy, hspm⟩ := t.eeReady_iff.1 (ht.accessReady hp)
  have hie : t.ie = false := ht.maskedIe (by rw [hp]; rfl)
  exact ⟨hbusy, hspm, by simp [State.irqEnabled, hie]⟩

/-- Settles O37: after reset EE_MEM and RX_Q are empty, and no command is in flight. -/
theorem resetMeetsInvariant : Obligations.ResetMeetsInvariant :=
  DataInv.inv_of_idle
    { memCanonical := reset_memory_wf
      memWithin := rfl
      latchOff := rfl
      txcIdle := nofun
      rxBounded := Nat.zero_le _
      faultsSet := List.nodup_nil }
    rfl rfl

end Sys2Proof.Machine

/-! SUPPORT. The words of EE_READ and EE_WRITE decode to them (30_encoding.md R76). -/

namespace Sys2Proof

/-- The row of EE_READ (30_encoding.md R76). -/
theorem decode_of_opc_eeRead {w : Word} (h : opcField w = 0x21#8) :
    decode w = inFormat .fa 0x21000000#32 w (.eeRead (addrField w)) := by
  simp only [decode, h]

/-- The row of EE_WRITE (30_encoding.md R76). -/
theorem decode_of_opc_eeWrite {w : Word} (h : opcField w = 0x22#8) :
    decode w = inFormat .fad 0x22000000#32 w (.eeWrite (addrField w) (dataField w)) := by
  simp only [decode, h]

theorem decode_encode_eeRead (a : Addr) : decode (encode (.eeRead a)) = .ok (.eeRead a) := by
  have hw : encode (.eeRead a) = wordA (patternOf 0x21#8) a := rfl
  rw [hw, decode_of_opc_eeRead (opcField_wordA _ a), addrField_wordA]
  exact inFormat_of_mask _ (mask_wordA 0x21#8 a)

theorem decode_encode_eeWrite (a : Addr) (d : Byte) : decode (encode (.eeWrite a d)) = .ok (.eeWrite a d) := by
  have hw : encode (.eeWrite a d) = wordAD (patternOf 0x22#8) a d := rfl
  rw [hw, decode_of_opc_eeWrite (opcField_wordAD _ a d), addrField_wordAD, dataField_wordAD]
  exact inFormat_of_mask _ (mask_wordAD 0x22#8 a d)

end Sys2Proof

/-! SUPPORT. A guarded access of a valid address, from its word on the port to its G_ACCESS (20_memory.md R63,
41_synchronizer.md R126 to R131). -/

namespace Sys2Proof.Machine

/-- A command with an address runs the phases of a guarded access (41_synchronizer.md R126). -/
theorem exec_of_address {i : Instr} {a : Addr} (hi : addressOf i = some a) (s : State) :
    ∃ v access result, exec i s = guardedAccess a v access result s := by
  cases i with
  | eeRead b => cases hi; exact ⟨_, _, _, rfl⟩
  | eeWrite b d => cases hi; exact ⟨_, writeAccess a d, fun _ => 0x00, rfl⟩
  | eeUpdate b d => cases hi; exact ⟨_, updateAccess a d, fun _ => 0x00, rfl⟩
  | _ => cases hi

/-- HOST presents a command with a valid address: G_VALIDATE, in the same step, moves on to G_POLL (30_encoding.md R79,
42_eeprom.md R141). -/
theorem hostStep_of_valid {i : Instr} {a : Addr} {s : State} {w : Word} {rest : List Word} (hp : s.ph = .idle)
    (hport : s.port = w :: rest) (hd : decode w = .ok i) (hi : addressOf i = some a) (ha : a.toNat < s.cfg.size) :
    hostStep s = .next (((s.withPort rest).accept w).toPhase .gPoll) := by
  have hidle : ((s.withPort rest).accept w).ph = .idle := hp
  obtain ⟨v, access, result, he⟩ := exec_of_address hi ((s.withPort rest).accept w)
  calc hostStep s = runCommand i ((s.withPort rest).accept w) := by simp only [hostStep, hport, present, hd]
    _ = exec i ((s.withPort rest).accept w) := runCommand_of_idle hidle
    _ = .next (gValidate a v ((s.withPort rest).accept w)) := by simp only [he, guardedAccess, hidle]
    _ = _ := by simp [gValidate, State.validAddr, ha]

/-- Under the invariant SEQ takes the micro-step of a command with an address, or is stopped: no fault is raised. -/
theorem seqStep_of_address {i : Instr} {a : Addr} {s t : State} (hinv : Inv s) (hd : decode s.cmd = .ok i)
    (hi : addressOf i = some a) (h : seqStep s = .next t) : t = s ∨ exec i s = .next t := by
  rcases seqStep_next h with ⟨-, rfl⟩ | ⟨-, j, hj, -, hrun⟩
  · exact .inl rfl
  obtain rfl : i = j := Except.ok.inj (hd.symm.trans hj)
  rcases runCommand_next hrun with hx | ⟨r, hx, -⟩
  · exact .inr hx
  rcases exec_fault hx with ⟨-, hp, hr, -⟩ | ⟨-, -, -, d, rfl⟩ | ⟨-, -, -, rfl⟩
  · rw [hinv.accessReady hp] at hr
    cases hr
  · cases hi
  · cases hi

/-- The phases of a guarded access after G_VALIDATE and up to G_ACCESS (41_synchronizer.md R126). -/
def Phase.accessPending : Phase → Bool
  | .gPoll | .gEnter | .gRecheck | .gAccess => true
  | _ => false

theorem Phase.ne_idle_of_accessPending {p : Phase} (h : p.accessPending = true) : p ≠ .idle := by
  rintro rfl
  cases h

/-- The EEPROM's bytes and the write in flight, if any, are the same in both states. -/
structure EepromKept (s t : State) : Prop where
  eeMem : t.eeMem = s.eeMem
  eeBusy : t.eeBusy = s.eeBusy
  eePendAddr : t.eePendAddr = s.eePendAddr
  eePendData : t.eePendData = s.eePendData

/-- Until its G_ACCESS a guarded access stays before it, and touches neither the EEPROM nor ERR. -/
theorem exec_accessPending {i : Instr} {a : Addr} {s t : State} (hi : addressOf i = some a)
    (hp : s.ph.accessPending = true) (h : exec i s = .next t) :
    s.ph = .gAccess ∨ (t.ph.accessPending = true ∧ EepromKept s t ∧ t.err = s.err) := by
  obtain ⟨v, access, result, he⟩ := exec_of_address hi s
  rcases guardedAccess_next (he ▸ h) with ⟨hph | hph, -⟩ | ⟨-, rfl⟩ | ⟨-, rfl⟩ | ⟨-, rfl⟩ | ⟨hph, -⟩ | ⟨hph, -⟩
  · rw [hph] at hp; cases hp
  · rw [hph] at hp; cases hp
  · unfold gPoll
    split <;> exact .inr ⟨rfl, ⟨rfl, rfl, rfl, rfl⟩, rfl⟩
  · exact .inr ⟨rfl, ⟨rfl, rfl, rfl, rfl⟩, rfl⟩
  · unfold gRecheck
    split <;> exact .inr ⟨rfl, ⟨rfl, rfl, rfl, rfl⟩, rfl⟩
  · exact .inl hph
  · rw [hph] at hp; cases hp

end Sys2Proof.Machine

/-! SUPPORT. The agents other than the main line, the handlers and the resets, and the EEPROM (42_eeprom.md R150). -/

namespace Sys2Proof.Machine

/-- `t` has ERR, TMP and the content of the response of `s`. -/
structure AnswerKept (s t : State) : Prop where
  err : t.err = s.err
  tmp : t.tmp = s.tmp
  rspIll : t.rspIll = s.rspIll
  rspData : t.rspData = s.rspData

/-- The agents other than the main line, the handlers and the resets write neither ERR nor TMP nor the response, and leave
the EEPROM as it is or complete the write in flight. -/
theorem agentStep_background {e : Event} {s t : State} (h : agentStep e s = .next t) (hm : e ≠ .main)
    (hr : e.isReset = false) (hq : e.isIrq = false) :
    (AnswerKept s t ∧ EepromKept s t) ∨
    ∃ stray, s.eeBusy = true ∧ t = { s with eeMem := completedMemory stray s, eeBusy := false } := by
  cases e with
  | main => exact absurd rfl hm
  | coldReset d => cases hr
  | warmReset d => cases hr
  | irq x => cases hq
  | eep x =>
    cases h
    rcases eepStep_cases x s with ⟨hb, e⟩ | ⟨-, e⟩ <;> rw [e]
    · exact .inr ⟨x, hb, rfl⟩
    · exact .inl ⟨⟨rfl, rfl, rfl, rfl⟩, ⟨rfl, rfl, rfl, rfl⟩⟩
  | txHandOver =>
    cases h
    rcases txHandOver_cases s with ⟨-, -, -, e⟩ | ⟨-, e⟩ <;> rw [e] <;>
      exact .inl ⟨⟨rfl, rfl, rfl, rfl⟩, ⟨rfl, rfl, rfl, rfl⟩⟩
  | txComplete =>
    cases h
    rcases txComplete_cases s with ⟨-, e⟩ | ⟨-, e⟩ <;> rw [e] <;>
      exact .inl ⟨⟨rfl, rfl, rfl, rfl⟩, ⟨rfl, rfl, rfl, rfl⟩⟩
  | rxArrive x p o f =>
    cases h
    rcases rxArrive_cases x p o f s with ⟨-, -, e⟩ | ⟨-, -, e⟩ | ⟨-, e⟩ <;> rw [e] <;>
      exact .inl ⟨⟨rfl, rfl, rfl, rfl⟩, ⟨rfl, rfl, rfl, rfl⟩⟩
  | setExtIrq b => cases h; exact .inl ⟨⟨rfl, rfl, rfl, rfl⟩, ⟨rfl, rfl, rfl, rfl⟩⟩
  | spmStart => cases h; split <;> exact .inl ⟨⟨rfl, rfl, rfl, rfl⟩, ⟨rfl, rfl, rfl, rfl⟩⟩
  | spmEnd => cases h; exact .inl ⟨⟨rfl, rfl, rfl, rfl⟩, ⟨rfl, rfl, rfl, rfl⟩⟩
  | hostWord w => cases h; exact .inl ⟨⟨rfl, rfl, rfl, rfl⟩, ⟨rfl, rfl, rfl, rfl⟩⟩

theorem agentStep_answerKept {e : Event} {s t : State} (h : agentStep e s = .next t) (hm : e ≠ .main)
    (hr : e.isReset = false) (hq : e.isIrq = false) : AnswerKept s t := by
  rcases agentStep_background h hm hr hq with ⟨hk, -⟩ | ⟨stray, -, rfl⟩
  · exact hk
  · exact ⟨rfl, rfl, rfl, rfl⟩

/-- The words on the port stay there, in their order, in every turn but the main line's. -/
theorem agentStep_keeps_port {e : Event} {s t : State} (h : agentStep e s = .next t) (hm : e ≠ .main) :
    s.port <+: t.port := by
  obtain ⟨hp, -⟩ := agentStep_outside h
  rw [if_neg fun hc => hm hc.1] at hp
  obtain ⟨extra, hp⟩ := hp
  exact ⟨extra, hp.symm⟩

/-- Address `a` holds `v` once the write in flight, if there is one, has completed. -/
def State.settlesTo (s : State) (a : Addr) (v : Byte) : Prop :=
  (s.eeBusy = true ∧ s.eePendAddr = a ∧ s.eePendData = v) ∨ (s.eeBusy = false ∧ s.eeByte a.toNat = v)

theorem State.settlesTo.eeByte {s : State} {a : Addr} {v : Byte} (h : s.settlesTo a v) (hb : s.eeBusy = false) :
    s.eeByte a.toNat = v := by
  rcases h with ⟨hb', -⟩ | ⟨-, h⟩
  · rw [hb] at hb'; cases hb'
  · exact h

theorem EepromKept.settlesTo {s t : State} (hk : EepromKept s t) {a : Addr} {v : Byte} (h : s.settlesTo a v) :
    t.settlesTo a v := by
  simpa only [State.settlesTo, State.eeByte, hk.eeMem, hk.eeBusy, hk.eePendAddr, hk.eePendData] using h

/-- A completion writes the pending byte (42_eeprom.md R150): what was to settle has settled. -/
theorem settlesTo_completed {s : State} {a : Addr} {v : Byte} (stray : Option (Nat × Byte)) (ha : a.toNat < s.cfg.size)
    (hb : s.eeBusy = true) (h : s.settlesTo a v) :
    State.settlesTo { s with eeMem := completedMemory stray s, eeBusy := false } a v := by
  rcases h with ⟨-, rfl, rfl⟩ | ⟨hb', -⟩
  · have hmem : completedMemory stray s = s.eeMem.set s.eePendAddr.toNat s.eePendData := if_pos ha
    exact .inr ⟨rfl, (State.eeByte_set s _ _ _ hmem _).trans (if_pos rfl)⟩
  · rw [hb] at hb'; cases hb'

theorem agentStep_settlesTo {e : Event} {s t : State} {a : Addr} {v : Byte} (h : agentStep e s = .next t)
    (hm : e ≠ .main) (hr : e.isReset = false) (hq : e.isIrq = false) (ha : a.toNat < s.cfg.size)
    (hv : s.settlesTo a v) : t.settlesTo a v := by
  rcases agentStep_background h hm hr hq with ⟨-, hk⟩ | ⟨stray, hb, rfl⟩
  · exact hk.settlesTo hv
  · exact settlesTo_completed stray ha hb hv

/-- Those agents start no EEPROM write. -/
theorem agentStep_stays_idle {e : Event} {s t : State} (h : agentStep e s = .next t) (hm : e ≠ .main)
    (hr : e.isReset = false) (hq : e.isIrq = false) (hb : s.eeBusy = false) : t.eeBusy = false := by
  rcases agentStep_background h hm hr hq with ⟨-, hk⟩ | ⟨stray, -, rfl⟩
  · exact hk.eeBusy.trans hb
  · rfl

end Sys2Proof.Machine

/-! SUPPORT. EE_WRITE and then EE_READ of one valid address, turn by turn (20_memory.md R64). -/

namespace Sys2Proof.Machine

/-- How far EE_WRITE `a, v` and EE_READ `a` have come when HOST has presented that many words: both on the port; the write
before its commit; the write committed; the read before its G_ACCESS; the byte in TMP; the byte in the response. -/
inductive RoundTrip (a : Addr) (v : Byte) : Nat → State → Prop where
  | asked {s : State} (ph : s.ph = .idle) (port : [encode (.eeWrite a v), encode (.eeRead a)] <+: s.port) :
      RoundTrip a v 0 s
  | writing {s : State} (cmd : s.cmd = encode (.eeWrite a v)) (ph : s.ph.accessPending = true)
      (port : [encode (.eeRead a)] <+: s.port) : RoundTrip a v 1 s
  | written {s : State} (cmd : s.cmd = encode (.eeWrite a v)) (ph : s.ph = .gExit ∨ s.ph = .idle)
      (port : [encode (.eeRead a)] <+: s.port) (settles : s.settlesTo a v) : RoundTrip a v 1 s
  | reading {s : State} (cmd : s.cmd = encode (.eeRead a)) (ph : s.ph.accessPending = true)
      (settles : s.settlesTo a v) : RoundTrip a v 2 s
  | fetched {s : State} (cmd : s.cmd = encode (.eeRead a)) (ph : s.ph = .gExit) (tmp : s.tmp = v)
      (busy : s.eeBusy = false) (settles : s.settlesTo a v) : RoundTrip a v 2 s
  | answered {s : State} (ph : s.ph = .idle) (valid : s.rspValid = true) (legal : s.rspIll = false)
      (data : s.rspData = v) (busy : s.eeBusy = false) (settles : s.settlesTo a v) : RoundTrip a v 2 s

section Stages

variable {a : Addr} {v : Byte} {n : Nat} {s t : State}

theorem RoundTrip.taken (hr : RoundTrip a v n s) : RoundTrip a v n s.taken := by
  rw [State.taken_eq]
  cases hr with
  | asked ph port => exact .asked ph port
  | writing cmd ph port => exact .writing cmd ph port
  | written cmd ph port settles => exact .written cmd ph port settles
  | reading cmd ph settles => exact .reading cmd ph settles
  | fetched cmd ph tmp busy settles => exact .fetched cmd ph tmp busy settles
  | answered ph valid legal data busy settles => exact .answered ph valid legal data busy settles

/-- The agents other than the main line, the handlers and the resets do not disturb the two commands. -/
theorem agentStep_keeps_roundTrip {e : Event} (h : agentStep e s = .next t) (hm : e ≠ .main) (hr : e.isReset = false)
    (hq : e.isIrq = false) (ha : a.toNat < s.cfg.size) (hrt : RoundTrip a v n s) :
    RoundTrip a v n t ∧ t.err = s.err := by
  have hseq := agentStep_sequencerKept h hm hr
  have hans := agentStep_answerKept h hm hr hq
  have hport := agentStep_keeps_port h hm
  refine ⟨?_, hans.err⟩
  cases hrt with
  | asked ph port => exact .asked (hseq.ph.trans ph) (port.trans hport)
  | writing cmd ph port => exact .writing (hseq.cmd.trans cmd) (hseq.ph ▸ ph) (port.trans hport)
  | written cmd ph port settles =>
    exact .written (hseq.cmd.trans cmd) (hseq.ph ▸ ph) (port.trans hport)
      (agentStep_settlesTo h hm hr hq ha settles)
  | reading cmd ph settles =>
    exact .reading (hseq.cmd.trans cmd) (hseq.ph ▸ ph) (agentStep_settlesTo h hm hr hq ha settles)
  | fetched cmd ph tmp busy settles =>
    exact .fetched (hseq.cmd.trans cmd) (hseq.ph.trans ph) (hans.tmp.trans tmp)
      (agentStep_stays_idle h hm hr hq busy) (agentStep_settlesTo h hm hr hq ha settles)
  | answered ph valid legal data busy settles =>
    exact .answered (hseq.ph.trans ph) (hseq.rspValid.trans valid) (hans.rspIll.trans legal)
      (hans.rspData.trans data) (agentStep_stays_idle h hm hr hq busy) (agentStep_settlesTo h hm hr hq ha settles)

/-- A micro-step of the write, once it is past G_VALIDATE. -/
theorem write_keeps_roundTrip (hp : s.ph.accessPending = true) (hcmd : s.cmd = encode (.eeWrite a v))
    (hport : [encode (.eeRead a)] <+: s.port) (h : exec (.eeWrite a v) s = .next t) :
    RoundTrip a v 1 t ∧ t.err = s.err := by
  rcases exec_accessPending rfl hp h with hacc | ⟨hp', -, herr⟩
  · simp only [exec, execEeWrite, guardedAccess, hacc] at h
    obtain ⟨-, rfl⟩ := writeAccess_next h
    exact ⟨.written hcmd (.inl rfl) hport (.inl ⟨rfl, rfl, rfl⟩), rfl⟩
  · obtain ⟨-, -, hcmd', -, -, -, -, -, -, -, hport', -⟩ := exec_frame h
    exact ⟨.writing (hcmd'.trans hcmd) hp' (hport' ▸ hport), herr⟩

/-- A micro-step of the read, once it is past G_VALIDATE: in G_ACCESS the EEPROM is ready, so the write has completed. -/
theorem read_keeps_roundTrip (hi : Inv s) (hp : s.ph.accessPending = true) (hcmd : s.cmd = encode (.eeRead a))
    (hv : s.settlesTo a v) (h : exec (.eeRead a) s = .next t) : RoundTrip a v 2 t ∧ t.err = s.err := by
  rcases exec_accessPending rfl hp h with hacc | ⟨hp', hk, herr⟩
  · simp only [exec, execEeRead, guardedAccess, hacc] at h
    obtain ⟨-, rfl⟩ := readAccess_next h
    obtain ⟨hb, -⟩ := s.eeReady_iff.1 (hi.accessReady hacc)
    exact ⟨.fetched hcmd rfl (hv.eeByte hb) hb hv, rfl⟩
  · obtain ⟨-, -, hcmd', -⟩ := exec_frame h
    exact ⟨.reading (hcmd'.trans hcmd) hp' (hk.settlesTo hv), herr⟩

/-- SEQ moves the two commands on. -/
theorem seqStep_keeps_roundTrip (hi : Inv s) (hp : s.ph ≠ .idle) (h : seqStep s = .next t) (hrt : RoundTrip a v n s) :
    RoundTrip a v n t ∧ t.err = s.err := by
  have hwrite (hc : s.cmd = encode (.eeWrite a v)) : t = s ∨ exec (.eeWrite a v) s = .next t :=
    seqStep_of_address hi (hc ▸ decode_encode_eeWrite a v) rfl h
  have hread (hc : s.cmd = encode (.eeRead a)) : t = s ∨ exec (.eeRead a) s = .next t :=
    seqStep_of_address hi (hc ▸ decode_encode_eeRead a) rfl h
  cases hrt with
  | asked ph port => exact absurd ph hp
  | answered ph => exact absurd ph hp
  | writing cmd ph port =>
    rcases hwrite cmd with rfl | hx
    · exact ⟨.writing cmd ph port, rfl⟩
    · exact write_keeps_roundTrip ph cmd port hx
  | written cmd ph port settles =>
    have hexit : s.ph = .gExit := ph.resolve_right hp
    rcases hwrite cmd with rfl | hx
    · exact ⟨.written cmd ph port settles, rfl⟩
    · simp only [exec, execEeWrite, guardedAccess, hexit] at hx
      cases hx
      exact ⟨.written cmd (.inr rfl) port settles, rfl⟩
  | reading cmd ph settles =>
    rcases hread cmd with rfl | hx
    · exact ⟨.reading cmd ph settles, rfl⟩
    · exact read_keeps_roundTrip hi ph cmd settles hx
  | fetched cmd ph tmp busy settles =>
    rcases hread cmd with rfl | hx
    · exact ⟨.fetched cmd ph tmp busy settles, rfl⟩
    · simp only [exec, execEeRead, guardedAccess, ph] at hx
      cases hx
      exact ⟨.answered rfl rfl rfl tmp busy settles, rfl⟩

/-- HOST presents the next of the two words. -/
theorem hostStep_advances_roundTrip (hp : s.ph = .idle) (ha : a.toNat < s.cfg.size) (h : hostStep s = .next t)
    (hrt : RoundTrip a v n s) (hn : n < 2) : RoundTrip a v (n + 1) t ∧ t.err = s.err := by
  cases hrt with
  | asked ph port =>
    obtain ⟨rest, hport⟩ := port
    rw [hostStep_of_valid hp hport.symm (decode_encode_eeWrite a v) rfl ha] at h
    cases h
    exact ⟨.writing rfl rfl ⟨rest, rfl⟩, rfl⟩
  | writing cmd ph port => exact absurd hp (Phase.ne_idle_of_accessPending ph)
  | written cmd ph port settles =>
    obtain ⟨rest, hport⟩ := port
    rw [hostStep_of_valid hp hport.symm (decode_encode_eeRead a) rfl ha] at h
    cases h
    exact ⟨.reading rfl rfl settles, rfl⟩
  | reading => omega
  | fetched => omega
  | answered => omega

/-- A step moves the two commands on by the word that HOST presents in it, if any, as long as there is no third one. -/
theorem step_keeps_roundTrip (hi : Inv s) (ha : a.toNat < s.cfg.size) (hq : (s.turn.isReset || s.turn.isIrq) = false)
    (hrt : RoundTrip a v n s) (h : step s = .next t) (hn : n + (if s.presents then 1 else 0) ≤ 2) :
    RoundTrip a v (n + if s.presents then 1 else 0) t ∧ t.err = s.err := by
  obtain ⟨hreset, hirq⟩ := Bool.or_eq_false_iff.1 hq
  have hrt' := hrt.taken
  have ha' : a.toNat < s.taken.cfg.size := by rwa [State.taken_cfg]
  rw [← State.taken_err s]
  by_cases hm : s.turn = .main
  · rw [step_of_turn hm] at h
    rcases mainStep_next h with ⟨hp, h⟩ | ⟨hp, h⟩
    · by_cases hport : s.port = []
      · rw [hostStep_of_port_nil (by rwa [State.taken_port])] at h
        cases h
        simpa [State.presents, hport] using hrt'
      · have hpres : s.presents = true := by
          rw [State.taken_ph] at hp
          simp [State.presents, hm, hp, hport]
        rw [if_pos hpres] at hn ⊢
        exact hostStep_advances_roundTrip hp ha' h hrt' (by omega)
    · have hpres : s.presents = false := by
        rw [State.taken_ph] at hp
        simp [State.presents, hp]
      simpa [hpres] using seqStep_keeps_roundTrip (taken_keeps_inv hi) hp h hrt'
  · have hpres : s.presents = false := by simp [State.presents, hm]
    simpa [hpres] using agentStep_keeps_roundTrip (step_eq s ▸ h) hm hreset hirq ha' hrt'

/-- A run in which HOST comes to its second word, and to no third one. -/
theorem runSteps_keeps_roundTrip {k : Nat} (hi : Inv s) (ha : a.toNat < s.cfg.size)
    (hn : NoEvent (fun e => e.isReset || e.isIrq) s) (hrt : RoundTrip a v n s) (h : runSteps k s = .next t)
    (hc : n + presentations k s = 2) : RoundTrip a v 2 t ∧ t.err = s.err := by
  induction k generalizing n s with
  | zero =>
    cases h
    obtain rfl : n = 2 := by simpa [presentations] using hc
    exact ⟨hrt, rfl⟩
  | succ k ih =>
    obtain ⟨u, hu, hrun⟩ := runSteps_succ_next h
    rw [presentations, countSteps_succ hu, ← Nat.add_assoc] at hc
    obtain ⟨hrt', herr⟩ := step_keeps_roundTrip hi ha (noEvent_turn hn) hrt hu (by omega)
    have hcfg := parametersAreFixed s u hu
    obtain ⟨hend, herr'⟩ := ih (step_keeps_inv hi hu) (by rwa [hcfg]) (noEvent_step hn hu) hrt' hrun hc
    exact ⟨hend, herr'.trans herr⟩

/-- At IDLE with both words presented, the read has answered. -/
theorem RoundTrip.answer (hrt : RoundTrip a v 2 t) (hp : t.ph = .idle) :
    t.rspValid = true ∧ t.rspIll = false ∧ t.rspData = v ∧ t.eeByte a.toNat = v := by
  cases hrt with
  | reading cmd ph settles => exact absurd hp (Phase.ne_idle_of_accessPending ph)
  | fetched cmd ph => rw [ph] at hp; cases hp
  | answered ph valid legal data busy settles => exact ⟨valid, legal, data, settles.eeByte busy⟩

end Stages

/-- Settles O36: the two commands go through the stages of `RoundTrip`, and the last of them is the only one at IDLE with
two words presented. -/
theorem writeThenReadReturnsByte : Obligations.WriteThenReadReturnsByte := by
  intro k s t a v later hi hp hport ha hn h hidle hc
  have hstart : RoundTrip a v 0 s := .asked hp ⟨later, hport.symm⟩
  obtain ⟨hend, herr⟩ := runSteps_keeps_roundTrip hi ha hn hstart h (by rwa [Nat.zero_add])
  obtain ⟨hvalid, hlegal, hdata, hbyte⟩ := hend.answer hidle
  exact ⟨hvalid, hlegal, hdata, hbyte, herr⟩

end Sys2Proof.Machine

/-! SUPPORT. The row of each command in the opcode map, and decoding as the inverse of encoding (30_encoding.md R70, R74 to
R77). -/

namespace Sys2Proof

/-- OPC of the row of a command (30_encoding.md R76). -/
def Instr.opcode : Instr → BitVec 8
  | .csEnter => 0x01#8
  | .csExit _ => 0x02#8
  | .errRead => 0x10#8
  | .errSet _ => 0x11#8
  | .errClear => 0x12#8
  | .eeIsReady => 0x20#8
  | .eeRead _ => 0x21#8
  | .eeWrite _ _ => 0x22#8
  | .eeUpdate _ _ => 0x23#8
  | .usInit => 0x30#8
  | .usTxIsReady => 0x31#8
  | .usTxIsTransmitted => 0x32#8
  | .usRxIsReady => 0x33#8
  | .usTxByte _ => 0x34#8
  | .usRxByte => 0x35#8
  | .usTxieOn => 0x36#8
  | .usTxieOff => 0x37#8
  | .usRxieOn => 0x38#8
  | .usRxieOff => 0x39#8

/-- The format of the row of a command (30_encoding.md R76): it has the operands of the constructor. -/
def Instr.format : Instr → Format
  | .csExit _ => .ft
  | .errSet _ | .usTxByte _ => .fd
  | .eeRead _ => .fa
  | .eeWrite _ _ | .eeUpdate _ _ => .fad
  | _ => .f0

/-- The row of a command in the opcode map; `row_mem_opcodeMap` says that it stands there. -/
def Instr.row (i : Instr) : Row := ⟨i.mnemonic, i.format, patternOf i.opcode⟩

/-- The command of the same row with the operands that the fields of `w` hold (30_encoding.md R75). -/
def Instr.withOperandsOf (i : Instr) (w : Word) : Instr :=
  match i with
  | .csExit _ => .csExit (tokenField w)
  | .errSet _ => .errSet (dataField w)
  | .eeRead _ => .eeRead (addrField w)
  | .eeWrite _ _ => .eeWrite (addrField w) (dataField w)
  | .eeUpdate _ _ => .eeUpdate (addrField w) (dataField w)
  | .usTxByte _ => .usTxByte (dataField w)
  | i => i

@[simp] theorem mnemonic_withOperandsOf (i : Instr) (w : Word) : (i.withOperandsOf w).mnemonic = i.mnemonic := by
  cases i <;> rfl

@[simp] theorem opcode_withOperandsOf (i : Instr) (w : Word) : (i.withOperandsOf w).opcode = i.opcode := by
  cases i <;> rfl

@[simp] theorem format_withOperandsOf (i : Instr) (w : Word) : (i.withOperandsOf w).format = i.format := by
  cases i <;> rfl

/-! Words and formats. -/

@[simp] theorem wordA_zero (p : Word) : wordA p 0#16 = p := BitVec.or_zero

@[simp] theorem wordAD_zero_data (p : Word) (a : Addr) : wordAD p a 0#8 = wordA p a := BitVec.or_zero

@[simp] theorem wordAD_zero_addr (p : Word) (d : Byte) : wordAD p 0#16 d = wordD p d :=
  congrArg (· ||| d.setWidth 32) (wordA_zero p)

@[simp] theorem addrField_patternOf (o : BitVec 8) : addrField (patternOf o) = 0#16 := by
  simpa using addrField_wordA o 0#16

@[simp] theorem dataField_patternOf (o : BitVec 8) : dataField (patternOf o) = 0#8 := by
  simpa using dataField_wordD o 0#8

/-- A field that the mask covers is unchanged by masking. -/
theorem extractLsb'_and_of_allOnes {m : Word} {start n : Nat} (hm : m.extractLsb' start n = BitVec.allOnes n) (w : Word) :
    (w &&& m).extractLsb' start n = w.extractLsb' start n := by
  rw [BitVec.extractLsb'_and, hm, BitVec.and_allOnes]

/-- OPC is no operand field: every format's mask covers it (30_encoding.md R74). -/
theorem opcField_of_masked {f : Format} {o : BitVec 8} {w : Word} (h : w &&& f.mask = patternOf o) :
    opcField w = o := by
  have hopc : f.mask.extractLsb' 24 8 = BitVec.allOnes 8 := by cases f <;> rfl
  calc opcField w = opcField (w &&& f.mask) := (extractLsb'_and_of_allOnes hopc w).symm
    _ = o := by rw [h, opcField_patternOf]

section Masked

variable (o : BitVec 8) {w : Word}

/-- A word of format FAD is its row's OPC, ADDR and DATA, and has no other bit (30_encoding.md R74). -/
theorem wordAD_of_masked (h : w &&& Format.fad.mask = patternOf o) :
    wordAD (patternOf o) (addrField w) (dataField w) = w := by
  rw [← opcField_of_masked h, word_of_fields]

/-- A word of format FD is its row's OPC and DATA, and has no other bit (30_encoding.md R74). -/
theorem wordD_of_masked (h : w &&& Format.fd.mask = patternOf o) : wordD (patternOf o) (dataField w) = w := by
  have haddr : addrField w = 0#16 :=
    calc addrField w = addrField (w &&& Format.fd.mask) := (extractLsb'_and_of_allOnes rfl w).symm
      _ = 0#16 := by rw [h, addrField_patternOf]
  rw [← wordAD_zero_addr, ← haddr, ← opcField_of_masked h, word_of_fields]

/-- A word of format FA is its row's OPC and ADDR, and has no other bit (30_encoding.md R74). -/
theorem wordA_of_masked (h : w &&& Format.fa.mask = patternOf o) : wordA (patternOf o) (addrField w) = w := by
  have hdata : dataField w = 0#8 :=
    calc dataField w = dataField (w &&& Format.fa.mask) := (extractLsb'_and_of_allOnes rfl w).symm
      _ = 0#8 := by rw [h, dataField_patternOf]
  rw [← wordAD_zero_data, ← hdata, ← opcField_of_masked h, word_of_fields]

/-- A word of format FT is its row's OPC and the token, and has no other bit (30_encoding.md R74). -/
theorem wordT_of_masked (h : w &&& Format.ft.mask = patternOf o) : wordT (patternOf o) (tokenField w) = w := by
  have hbit : (if tokenField w then 1#32 else 0#32) = w &&& 1#32 := by
    rw [tokenField, BitVec.and_one_eq_setWidth_ofBool_getLsbD]
    cases w.getLsbD 0 <;> rfl
  rw [wordT, ← h, hbit, ← BitVec.and_or_distrib_left]
  exact BitVec.and_allOnes

end Masked

/-- A format without operands has no bit to drop (30_encoding.md R74). -/
theorem and_f0_mask (w : Word) : w &&& Format.f0.mask = w := BitVec.and_allOnes

/-! The encoding of a command, and the word that selects its row. -/

/-- The encoding of a command selects its row (30_encoding.md R76). -/
theorem encode_and_mask (i : Instr) : encode i &&& i.format.mask = patternOf i.opcode := by
  cases i with
  | csExit t => exact mask_wordT 0x02#8 t
  | errSet d => exact mask_wordD 0x11#8 d
  | eeRead a => exact mask_wordA 0x21#8 a
  | eeWrite a d => exact mask_wordAD 0x22#8 a d
  | eeUpdate a d => exact mask_wordAD 0x23#8 a d
  | usTxByte d => exact mask_wordD 0x34#8 d
  | _ => exact and_f0_mask _

/-- The operand fields of an encoding hold the operands (30_encoding.md R75). -/
theorem withOperandsOf_encode (i : Instr) : i.withOperandsOf (encode i) = i := by
  cases i with
  | csExit t => exact congrArg Instr.csExit (tokenField_wordT 0x02#8 t)
  | errSet d => exact congrArg Instr.errSet (dataField_wordD 0x11#8 d)
  | eeRead a => exact congrArg Instr.eeRead (addrField_wordA 0x21#8 a)
  | eeWrite a d => exact congrArg₂ Instr.eeWrite (addrField_wordAD 0x22#8 a d) (dataField_wordAD 0x22#8 a d)
  | eeUpdate a d => exact congrArg₂ Instr.eeUpdate (addrField_wordAD 0x23#8 a d) (dataField_wordAD 0x23#8 a d)
  | usTxByte d => exact congrArg Instr.usTxByte (dataField_wordD 0x34#8 d)
  | _ => rfl

/-- A word that selects the row of `i` is the encoding of the command of that row with the operands of the word. -/
theorem encode_withOperandsOf {i : Instr} {w : Word} (h : w &&& i.format.mask = patternOf i.opcode) :
    encode (i.withOperandsOf w) = w := by
  cases i with
  | csExit t => exact wordT_of_masked 0x02#8 h
  | errSet d => exact wordD_of_masked 0x11#8 h
  | eeRead a => exact wordA_of_masked 0x21#8 h
  | eeWrite a d => exact wordAD_of_masked 0x22#8 h
  | eeUpdate a d => exact wordAD_of_masked 0x23#8 h
  | usTxByte d => exact wordD_of_masked 0x34#8 h
  | _ => exact h.symm.trans (and_f0_mask w)

/-! Decoding, once for all rows. -/

/-- A word with the OPC of the row of `i` decodes in the format of that row (30_encoding.md R76). -/
theorem decode_of_opcode {i : Instr} {w : Word} (h : opcField w = i.opcode) :
    decode w = inFormat i.format (patternOf i.opcode) w (i.withOperandsOf w) := by
  cases i <;> simp only [decode, h, Instr.opcode] <;> rfl

/-- A word that selects the row of `i` decodes to the command of that row. -/
theorem decode_of_selects {i : Instr} {w : Word} (h : w &&& i.format.mask = patternOf i.opcode) :
    decode w = .ok (i.withOperandsOf w) := by
  rw [decode_of_opcode (opcField_of_masked h), inFormat_of_mask _ h]

/-- A legal word decodes to a command of the row that its OPC names (30_encoding.md R76). -/
theorem opcode_of_decode {i : Instr} {w : Word} (h : decode w = .ok i) : opcField w = i.opcode := by
  unfold decode at h
  split at h
  case h_20 => cases h
  all_goals
    next hopc =>
      obtain ⟨-, rfl⟩ := inFormat_ok h
      exact hopc

/-- A legal word selects the row of the command it decodes to, and holds the operands of the command. -/
theorem selects_of_decode {i : Instr} {w : Word} (h : decode w = .ok i) :
    w &&& i.format.mask = patternOf i.opcode ∧ i.withOperandsOf w = i := by
  rw [decode_of_opcode (opcode_of_decode h)] at h
  exact inFormat_ok h

/-- Settles O1: the encoding selects the row of the command, and its fields hold the operands. -/
theorem decodeOfEncode : Obligations.DecodeOfEncode := by
  intro i
  rw [decode_of_selects (encode_and_mask i), withOperandsOf_encode]

/-- Settles O2: the word selects the row of the command, so the masked bits and the operands are all its bits. -/
theorem encodeOfDecode : Obligations.EncodeOfDecode := by
  intro w i h
  obtain ⟨hmask, hoperands⟩ := selects_of_decode h
  rw [← hoperands, encode_withOperandsOf hmask]

/-! The rows of the opcode map are those of the commands. -/

/-- One command for each row of the opcode map, in its order. -/
def rowCommands : List Instr :=
  [.csEnter, .csExit false, .errRead, .errSet 0, .errClear, .eeIsReady, .eeRead 0, .eeWrite 0 0, .eeUpdate 0 0, .usInit,
    .usTxIsReady, .usTxIsTransmitted, .usRxIsReady, .usTxByte 0, .usRxByte, .usTxieOn, .usTxieOff, .usRxieOn, .usRxieOff]

theorem opcodeMap_eq_rows : opcodeMap = rowCommands.map Instr.row := by decide

theorem row_mem_opcodeMap (i : Instr) : i.row ∈ opcodeMap := by
  have hrep : i.withOperandsOf 0#32 ∈ rowCommands := by cases i <;> simp [Instr.withOperandsOf, rowCommands] <;> decide
  have hrow : (i.withOperandsOf 0#32).row = i.row := by simp [Instr.row]
  rw [opcodeMap_eq_rows, ← hrow]
  exact List.mem_map_of_mem hrep

theorem exists_command_of_row {r : Row} (h : r ∈ opcodeMap) : ∃ i : Instr, i.row = r := by
  rw [opcodeMap_eq_rows] at h
  obtain ⟨i, -, hi⟩ := List.mem_map.1 h
  exact ⟨i, hi⟩

/-- A word that selects a row decodes to the row's command (30_encoding.md R76). -/
theorem decode_of_row {r : Row} {w : Word} (hr : r ∈ opcodeMap) (h : w &&& r.format.mask = r.pattern) :
    ∃ i, decode w = .ok i ∧ i.mnemonic = r.mnemonic := by
  obtain ⟨i, rfl⟩ := exists_command_of_row hr
  exact ⟨i.withOperandsOf w, decode_of_selects h, mnemonic_withOperandsOf i w⟩

/-- Settles O3: a legal word selects the row of its command, and a row that a word selects makes it legal. -/
theorem decodeFollowsOpcodeMap : Obligations.DecodeFollowsOpcodeMap := by
  refine fun w => ⟨⟨?noRow, ?illegal⟩, fun r hr => decode_of_row hr⟩
  case noRow =>
    rintro ⟨e, he⟩ r hr hsel
    obtain ⟨i, hi, -⟩ := decode_of_row hr hsel
    cases he.symm.trans hi
  case illegal =>
    intro hnone
    cases hd : decode w with
    | error e => exact ⟨e, rfl⟩
    | ok i =>
      obtain ⟨hmask, -⟩ := selects_of_decode hd
      exact absurd hmask (hnone i.row (row_mem_opcodeMap i))

/-- Settles O5: the legal words of the table are encodings, and the others decode to nothing. -/
theorem vectorWordsDecode : Obligations.VectorWordsDecode :=
  ⟨decodeOfEncode .csEnter, decodeOfEncode (.csExit true), decodeOfEncode (.errSet 0xFF#8),
    decodeOfEncode (.eeRead 0xFFFF#16), decodeOfEncode (.eeWrite 0xFFFF#16 0xFF#8), decodeOfEncode (.usTxByte 0x0A#8),
    decodeOfEncode .usRxieOff, by decide, by decide, by decide⟩

end Sys2Proof

/-! SUPPORT. HOST presents the next word of its program (30_encoding.md R79, R80). -/

namespace Sys2Proof.Machine

theorem present_illegal {w : Word} {e : Illegal} (h : decode w = .error e) (s : State) :
    present w s = .next s.respondIllegal := by
  simp only [present, h]

/-- A legal word goes to CMD and the first micro-step of its command is taken at once (30_encoding.md R79): at IDLE no fault
is raised, so there is none to record. -/
theorem present_legal {w : Word} {i : Instr} {s : State} (h : decode w = .ok i) (hp : s.ph = .idle) :
    present w s = exec i (s.accept w) := by
  simp only [present, h]
  exact runCommand_of_idle hp

/-- HOST's step with a word on the port presents that word (log entry 6). -/
theorem step_of_hostNow {s : State} {w : Word} {rest : List Word} (h : s.hostNow) (hport : s.port = w :: rest) :
    step s = present w (s.taken.withPort rest) := by
  obtain ⟨hturn, hph⟩ := h
  calc step s = mainStep s.taken := step_of_turn hturn
    _ = hostStep s.taken := mainStep_of_idle (by rwa [State.taken_ph])
    _ = present w (s.taken.withPort rest) := by simp only [hostStep, State.taken_port, hport]

/-- Settles O6: both clauses are what presenting a word answers. -/
theorem hostPresentsWord : Obligations.HostPresentsWord := by
  intro s w rest hn hport
  rw [step_of_hostNow hn hport]
  have hidle : (s.taken.withPort rest).ph = .idle := by
    rw [State.withPort_ph, State.taken_ph]
    exact hn.2
  exact ⟨fun e he => present_illegal he _, fun i hi => present_legal hi hidle⟩

/-- Settles O4: OPC 0x00 is reserved, and HOST only answers an illegal word. -/
theorem zeroWordIssuesNothing : Obligations.ZeroWordIssuesNothing := by
  have hzero : decode 0x00000000#32 = .error (.reservedOpcode 0x00#8) := by decide
  exact ⟨hzero, fun s rest hn hport => (hostPresentsWord s _ rest hn hport).1 _ hzero⟩

end Sys2Proof.Machine

/-! SUPPORT. The commands of the error register, and the codes that a received byte reports in it (40_error_register.md
R100 to R105). -/

namespace Sys2Proof.Machine

/-- Settles O8: ERR_READ is one `respond` with ERR. -/
theorem errReadAnswersErr : Obligations.ErrReadAnswersErr := ⟨rfl, fun _ => rfl⟩

/-- Settles O9: ERR_SET is one OR into ERR and one `respond`. -/
theorem errSetOrsMask : Obligations.ErrSetOrsMask := fun _ _ => ⟨rfl, rfl⟩

/-- Settles O10: ERR_CLEAR is one write of ERR and one `respond`. -/
theorem errClearWritesNone : Obligations.ErrClearWritesNone := ⟨rfl, rfl, fun _ => rfl⟩

/-- The union of the default codes (00_scope.md R9) reads the error bits of an entry and not its byte. -/
theorem rxCodes_default (x : Byte) (p o f : Bool) :
    rxCodes Config.default ⟨x, p, o, f⟩ = codeIf p 0x20#8 ||| codeIf o 0x21#8 ||| codeIf f 0x22#8 := rfl

/-- Settles O14: the bit of the parity code is one of both other codes, and those two together are 0x23. -/
theorem defaultCodesAlias : Obligations.DefaultCodesAlias := by
  intro x
  simp only [rxCodes_default]
  decide

end Sys2Proof.Machine

/-! SUPPORT. What one step ORs into ERR (10_state.md R23, 40_error_register.md R104, R106), and so what a run does (R107). -/

namespace Sys2Proof.Machine

/-- What the first micro-step of a command ORs into ERR. -/
def startMask (i : Instr) (s : State) : Byte :=
  match i with
  | .errSet d => d
  | i => addressCode s i

/-- What the micro-step of a command at PH ORs into ERR. -/
def commandMask (i : Instr) (s : State) : Byte :=
  match s.ph with
  | .idle => startMask i s
  | .gValidate => addressCode s i
  | .rInspect => headCodes s
  | _ => 0

section Masks

variable {i : Instr} {s t : State}

theorem commandMask_of_idle (hp : s.ph = .idle) : commandMask i s = startMask i s := by simp only [commandMask, hp]

theorem commandMask_of_validate (hp : s.ph = .gValidate) : commandMask i s = addressCode s i := by
  simp only [commandMask, hp]

theorem commandMask_of_inspect (hp : s.ph = .rInspect) : commandMask i s = headCodes s := by simp only [commandMask, hp]

theorem startMask_of_address {a : Addr} (hi : addressOf i = some a) : startMask i s = addressCode s i := by
  cases i with
  | errSet d => cases hi
  | _ => rfl

/-- The model's mask of a presented command is that of its first micro-step. -/
theorem presentedMask_of_presented (h : s.presented = some i) : presentedMask s = startMask i s := by
  unfold presentedMask
  rw [h]
  cases i <;> rfl

/-- The model's mask of the command in flight is that of its micro-step at PH. -/
theorem flightMask_of_command (hs : s.seqStopped = false) (hp : s.ph ≠ .idle) (hd : decode s.cmd = .ok i) :
    flightMask s = commandMask i s := by
  simp only [flightMask, commandMask, hs]
  cases hph : s.ph with
  | idle => exact absurd hph hp
  | gValidate => simp only [hd]; rfl
  | _ => rfl

theorem validAddr_congr (h : t.cfg = s.cfg) (a : Addr) : t.validAddr a = s.validAddr a := by
  simp only [State.validAddr, h]

theorem addressCode_congr (h : t.cfg = s.cfg) (i : Instr) : addressCode t i = addressCode s i := by
  unfold addressCode
  cases addressOf i with
  | none => rfl
  | some a => simp only [validAddr_congr h, h]

/-- A first micro-step reports by its operands and the parameters only. -/
theorem startMask_congr (h : t.cfg = s.cfg) (i : Instr) : startMask i t = startMask i s := by
  cases i with
  | errSet d => rfl
  | _ => simp only [startMask, addressCode_congr h]

/-- The turn is not part of what the micro-step in flight reads. -/
theorem flightMask_taken (s : State) : flightMask s.taken = flightMask s := by
  rw [State.taken_eq]
  rfl

/-- At a phase that reports nothing, a micro-step that leaves ERR alone ORs its mask into it. -/
theorem err_of_silent_phase (ht : t.err = s.err) (hm : commandMask i s = 0) : t.err = s.err ||| commandMask i s := by
  rw [hm, ht]
  exact BitVec.or_zero.symm

end Masks

/-! The micro-steps of each command. -/

section Commands

variable {i : Instr} {s t : State}

/-- G_VALIDATE is the one phase of a guarded access that reports in ERR (42_eeprom.md R141). -/
theorem gValidate_err {a : Addr} (hi : addressOf i = some a) (v : Byte) :
    (gValidate a v s).err = s.err ||| addressCode s i := by
  simp only [addressCode, hi]
  rcases gValidate_cases a v s with ⟨ha, e⟩ | ⟨ha, e⟩ <;> rw [e, ha]
  · exact BitVec.or_zero.symm
  · rfl

theorem guardedAccess_err {a : Addr} {v : Byte} {access : State → Result} {result : State → Byte}
    (hi : addressOf i = some a) (h : guardedAccess a v access result s = .next t)
    (hx : access s = .next t → t.err = s.err) : t.err = s.err ||| commandMask i s := by
  rcases guardedAccess_next h with ⟨hp | hp, rfl⟩ | ⟨hp, rfl⟩ | ⟨hp, rfl⟩ | ⟨hp, rfl⟩ | ⟨hp, ha⟩ | ⟨hp, rfl⟩
  · rw [commandMask_of_idle hp, startMask_of_address hi]
    exact gValidate_err hi v
  · rw [commandMask_of_validate hp]
    exact gValidate_err hi v
  · exact err_of_silent_phase (by unfold gPoll; split <;> rfl) (by simp only [commandMask, hp])
  · exact err_of_silent_phase rfl (by simp only [commandMask, hp])
  · exact err_of_silent_phase (by unfold gRecheck; split <;> rfl) (by simp only [commandMask, hp])
  · exact err_of_silent_phase (hx ha) (by simp only [commandMask, hp])
  · exact err_of_silent_phase rfl (by simp only [commandMask, hp])

/-- US_INIT reports nothing (43_usart.md R171). -/
theorem execUsInit_err (h : execUsInit s = .next t) : t.err = s.err ||| commandMask .usInit s := by
  rcases atomicSection_next h with ⟨hp | hp, rfl⟩ | ⟨hp, rfl⟩ | ⟨hp, rfl⟩
  · exact err_of_silent_phase rfl (commandMask_of_idle hp)
  · exact err_of_silent_phase rfl (by simp only [commandMask, hp])
  · exact err_of_silent_phase rfl (by simp only [commandMask, hp])
  · exact err_of_silent_phase rfl (by simp only [commandMask, hp])

/-- US_TX_BYTE reports nothing (43_usart.md R176 to R178). -/
theorem execUsTxByte_err {d : Byte} (h : execUsTxByte d s = .next t) :
    t.err = s.err ||| commandMask (.usTxByte d) s := by
  rcases execUsTxByte_next h with ⟨hp | hp, rfl⟩ | ⟨hp, rfl⟩ | ⟨hp, hw⟩
  · exact err_of_silent_phase (by unfold tStart; split <;> rfl) (commandMask_of_idle hp)
  · exact err_of_silent_phase (by unfold tStart; split <;> rfl) (by simp only [commandMask, hp])
  · exact err_of_silent_phase (by unfold tPoll; split <;> rfl) (by simp only [commandMask, hp])
  · obtain ⟨-, ⟨b, -, rfl⟩ | ⟨-, rfl⟩⟩ := tWrite_next hw <;>
      exact err_of_silent_phase rfl (by simp only [commandMask, hp])

/-- R_INSPECT is the one phase of US_RX_BYTE that reports in ERR: the codes of the head entry, at once (43_usart.md
R181). -/
theorem execUsRxByte_err (h : execUsRxByte s = .next t) : t.err = s.err ||| commandMask .usRxByte s := by
  rcases execUsRxByte_next h with ⟨hp | hp, rfl⟩ | ⟨hp, hx⟩ | ⟨hp, hx⟩
  · exact err_of_silent_phase (by unfold rPoll; split <;> rfl) (commandMask_of_idle hp)
  · exact err_of_silent_phase (by unfold rPoll; split <;> rfl) (by simp only [commandMask, hp])
  · obtain ⟨e, q, hq, rfl⟩ := rInspect_next hx
    rw [commandMask_of_inspect hp, headCodes, hq]
    rfl
  · obtain ⟨e, q, -, rfl⟩ := rRead_next hx
    exact err_of_silent_phase rfl (by simp only [commandMask, hp])

/-- A command without phases of its own runs at IDLE only (10_state.md R26). -/
theorem idle_of_no_phases (hi : phasesOf i = []) (hp : s.ph = .idle ∨ hasPhase i s.ph = true) : s.ph = .idle := by
  rcases hp with hp | hp
  · exact hp
  · simp [hasPhase, hi] at hp

/-- What a micro-step of a command does to ERR, unless it is ERR_CLEAR: it ORs its mask into it. -/
theorem exec_err (hp : s.ph = .idle ∨ hasPhase i s.ph = true) (hc : i ≠ .errClear) (h : exec i s = .next t) :
    t.err = s.err ||| commandMask i s := by
  cases i with
  | errClear => exact absurd rfl hc
  | errSet d => cases h; rw [commandMask_of_idle (idle_of_no_phases rfl hp)]; rfl
  | eeRead a => exact guardedAccess_err rfl h fun hx => by obtain ⟨-, rfl⟩ := readAccess_next hx; rfl
  | eeWrite a d =>
    exact guardedAccess_err (access := writeAccess a d) (result := fun _ => 0x00) rfl h fun hx => by
      obtain ⟨-, rfl⟩ := writeAccess_next hx; rfl
  | eeUpdate a d =>
    exact guardedAccess_err (access := updateAccess a d) (result := fun _ => 0x00) rfl h fun hx => by
      obtain ⟨-, ⟨-, rfl⟩ | ⟨-, -, rfl⟩⟩ := updateAccess_next hx <;> rfl
  | usInit => exact execUsInit_err h
  | usTxByte d => exact execUsTxByte_err h
  | usRxByte => exact execUsRxByte_err h
  | _ => cases h; exact err_of_silent_phase rfl (commandMask_of_idle (idle_of_no_phases rfl hp))

/-- A micro-step that raises a fault has nothing to report: R_INSPECT faults on an empty queue only. -/
theorem commandMask_of_fault {r : Fault} (h : exec i s = .fault r) : commandMask i s = 0 := by
  rcases exec_fault h with ⟨-, hp, -⟩ | ⟨-, hp, -⟩ | ⟨-, hp | hp, hq, -⟩
  · simp only [commandMask, hp]
  · simp only [commandMask, hp]
  · rw [commandMask_of_inspect hp, headCodes, hq]
  · simp only [commandMask, hp]

theorem atRaise_err (i : Instr) (s : State) : (atRaise i s).err = s.err := by
  rcases atRaise_cases i s with e | ⟨a, d, v, -, e⟩ <;> rw [e]
  rfl

theorem runCommand_err (hp : s.ph = .idle ∨ hasPhase i s.ph = true) (hc : i ≠ .errClear)
    (h : runCommand i s = .next t) : t.err = s.err ||| commandMask i s := by
  rcases runCommand_next h with h | ⟨r, hr, rfl⟩
  · exact exec_err hp hc h
  · exact err_of_silent_phase (atRaise_err i s) (commandMask_of_fault hr)

end Commands

/-! The turns of the agents. -/

section Turns

variable {s t : State}

/-- HOST presents the command of the next word on its port (30_encoding.md R79). -/
theorem presented_of_port {w : Word} {rest : List Word} (hturn : s.turn = .main) (hp : s.ph = .idle)
    (hport : s.port = w :: rest) : s.presented = (decode w).toOption := by
  simp only [State.presented, hturn, hp, hport]

theorem presentedMask_of_none (h : s.presented = none) : presentedMask s = 0 := by
  simp only [presentedMask, h]

theorem hostStep_err (hturn : s.turn = .main) (hp : s.ph = .idle) (hc : s.presented ≠ some .errClear)
    (h : hostStep s.taken = .next t) : t.err = s.err ||| presentedMask s := by
  rcases hostStep_next h with ⟨hport, rfl⟩ | ⟨w, rest, hport, hw⟩ <;> rw [State.taken_port] at hport
  · have hnone : s.presented = none := by simp only [State.presented, hturn, hp, hport]
    rw [presentedMask_of_none hnone, State.taken_err]
    exact BitVec.or_zero.symm
  have hpres := presented_of_port hturn hp hport
  rcases hw with ⟨e, hd, rfl⟩ | ⟨i, hd, hrun⟩ <;> rw [hd] at hpres
  · rw [presentedMask_of_none hpres]
    exact (State.taken_err s).trans BitVec.or_zero.symm
  · have hidle : ((s.taken.withPort rest).accept w).ph = .idle := (State.taken_ph s).trans hp
    have hi : i ≠ .errClear := by rintro rfl; exact hc hpres
    have hmask : commandMask i ((s.taken.withPort rest).accept w) = presentedMask s := by
      rw [commandMask_of_idle hidle, presentedMask_of_presented hpres]
      exact startMask_congr (State.taken_cfg s) i
    rw [← hmask, ← State.taken_err s]
    exact runCommand_err (s := (s.taken.withPort rest).accept w) (.inl hidle) hi hrun

theorem seqStep_err (hp : s.ph ≠ .idle) (h : seqStep s = .next t) : t.err = s.err ||| flightMask s := by
  rcases seqStep_next h with ⟨hs, rfl⟩ | ⟨hs, i, hd, hph, hrun⟩
  · simp [flightMask, hs]
  · have hi : i ≠ .errClear := by rintro rfl; cases hph
    rw [flightMask_of_command hs hp hd]
    exact runCommand_err (.inr hph) hi hrun

/-- What every step does to ERR but one that clears it: it ORs its mask into it (10_state.md R23). -/
theorem step_err (hc : ¬ clearsErr s) (h : step s = .next t) : t.err = s.err ||| errMask s := by
  have hx := step_eq s ▸ h
  obtain ⟨hpres, hcold⟩ := not_or.1 hc
  unfold errMask
  cases hturn : s.turn with
  | main =>
    rw [hturn] at hx
    rcases mainStep_next hx with ⟨hp, hx⟩ | ⟨hp, hx⟩ <;> rw [State.taken_ph] at hp
    · simp only [if_pos hp]
      exact hostStep_err hturn hp hpres hx
    · simp only [if_neg hp]
      rw [← flightMask_taken, ← State.taken_err s]
      exact seqStep_err (by rwa [State.taken_ph]) hx
  | irq x =>
    rw [hturn] at hx
    cases hx
    rw [State.taken_irqEnabled]
    split <;> simp
  | coldReset d => exact absurd ⟨d, hturn⟩ hcold
  | warmReset d => rw [hturn] at hx; cases hx; exact (State.taken_err s).trans BitVec.or_zero.symm
  | _ =>
    rw [hturn] at hx
    rw [(agentStep_answerKept hx nofun rfl rfl).err, State.taken_err]
    exact BitVec.or_zero.symm

/-- A run of `k + 1` steps ORs in the mask of its first step and those of the other `k`. -/
theorem errMasks_succ (k : Nat) (h : step s = .next t) : errMasks (k + 1) s = errMask s ||| errMasks k t := by
  simp only [errMasks, h]

end Turns

/-- Settles O12, by induction on the number of steps: each one ORs in its mask. -/
theorem errIsUnionOfMasks : Obligations.ErrIsUnionOfMasks := by
  intro k
  induction k with
  | zero =>
    intro s t _ hrun
    cases hrun
    exact BitVec.or_zero.symm
  | succ k ih =>
    intro s t hclear hrun
    obtain ⟨hfirst, hrest⟩ := hclear
    obtain ⟨u, hu, hut⟩ := runSteps_succ_next hrun
    calc t.err = u.err ||| errMasks k u := ih u t (hrest u hu) hut
      _ = s.err ||| errMask s ||| errMasks k u := by rw [step_err hfirst hu]
      _ = s.err ||| errMasks (k + 1) s := by rw [errMasks_succ k hu, BitVec.or_assoc]

/-- Settles O11: a step that does not clear ERR only ORs into it. -/
theorem errBitsStaySet : Obligations.ErrBitsStaySet := by
  intro s t h hc
  rw [step_err hc h]
  ext n hn
  simp only [BitVec.getElem_and, BitVec.getElem_or]
  exact inf_sup_self

end Sys2Proof.Machine

/-! SUPPORT. Micro-steps from two states that differ in ERR only (40_error_register.md R108). -/

namespace Sys2Proof.Machine

/-- `s` with another value of ERR. -/
def State.withErr (s : State) (e : Byte) : State := { s with err := e }

section WithErr

variable (s : State) (e : Byte)

@[simp] theorem State.withErr_ph : (s.withErr e).ph = s.ph := rfl
@[simp] theorem State.withErr_nxt : (s.withErr e).nxt = s.nxt := rfl
@[simp] theorem State.withErr_rxQ : (s.withErr e).rxQ = s.rxQ := rfl

end WithErr

/-- `f` has the same outcome from every value of ERR, but for ERR itself. -/
def IgnoresErr (f : State → Result) : Prop :=
  ∀ (s : State) (e : Byte), withoutErr (f (s.withErr e)) = withoutErr (f s)

/-- Two next states that are the same but for ERR. -/
theorem eq_withErr_of_withoutErr {s t : State} (h : withoutErr (.next t) = withoutErr (.next s)) :
    t = s.withErr t.err := by
  have hs : t.withErr 0 = s.withErr 0 := Host.Outcome.next.inj h
  calc t = (t.withErr 0).withErr t.err := rfl
    _ = (s.withErr 0).withErr t.err := by rw [hs]
    _ = s.withErr t.err := rfl

/-- The second part of a micro-step sees of the first only what ERR does not change. -/
theorem withoutErr_andThen {o o' : Result} {g : State → Result} (ho : withoutErr o' = withoutErr o)
    (hg : IgnoresErr g) : withoutErr (andThen o' g) = withoutErr (andThen o g) := by
  cases o with
  | next s =>
    cases o' with
    | next t =>
      rw [eq_withErr_of_withoutErr ho]
      exact hg s t.err
    | fault r => cases ho
    | refused r => cases ho
  | fault r => cases o' <;> cases ho; rfl
  | refused r => cases o' <;> cases ho; rfl

/-- A branch taken alike from every value of ERR. -/
theorem IgnoresErr.ite {c : State → Prop} [DecidablePred c] {f g : State → Result}
    (hc : ∀ s e, c (s.withErr e) ↔ c s) (hf : IgnoresErr f) (hg : IgnoresErr g) :
    IgnoresErr fun s => if c s then f s else g s := by
  intro s e
  by_cases h : c s
  · simp only [if_pos h, if_pos ((hc s e).2 h)]
    exact hf s e
  · simp only [if_neg h, if_neg fun h' => h ((hc s e).1 h')]
    exact hg s e

/-- The same for a phase that always answers a next state. -/
theorem IgnoresErr.next_ite {c : State → Prop} [DecidablePred c] {f g : State → State}
    (hc : ∀ s e, c (s.withErr e) ↔ c s) (hf : IgnoresErr fun s => .next (f s))
    (hg : IgnoresErr fun s => .next (g s)) :
    IgnoresErr fun s => .next (if c s then f s else g s) := by
  simpa only [apply_ite Host.Outcome.next] using IgnoresErr.ite hc hf hg

/-! The EEPROM commands. -/

theorem toPhase_ignoresErr (p : Phase) : IgnoresErr fun s => .next (s.toPhase p) := fun _ _ => rfl

theorem readEe_ignoresErr (a : Addr) : IgnoresErr fun s => s.readEe a :=
  .ite (fun _ _ => Iff.rfl) (fun _ _ => rfl) (fun _ _ => rfl)

theorem commit_ignoresErr : IgnoresErr State.commit :=
  .ite (c := fun s => s.eeLatch = true) (fun _ _ => Iff.rfl)
    (.ite (c := fun s => (s.eeBusy || s.spmBusy) = true) (fun _ _ => Iff.rfl) (fun _ _ => rfl) (fun _ _ => rfl))
    (fun _ _ => rfl)

theorem readAccess_ignoresErr (a : Addr) : IgnoresErr (readAccess a) := fun s e =>
  withoutErr_andThen (readEe_ignoresErr a s e) (toPhase_ignoresErr .gExit)

theorem writeAccess_ignoresErr (a : Addr) (d : Byte) : IgnoresErr (writeAccess a d) := fun s e =>
  withoutErr_andThen (commit_ignoresErr (s.programEe a d).latch e) (toPhase_ignoresErr .gExit)

/-- Both the byte compared and the write after it are the same from every value of ERR (42_eeprom.md R146). -/
theorem updateAccess_ignoresErr (a : Addr) (d : Byte) : IgnoresErr (updateAccess a d) := by
  refine fun s e => withoutErr_andThen (readEe_ignoresErr a s e) ?_
  refine .ite (c := fun t => t.tmp ≠ d) (fun _ _ => Iff.rfl) (fun t e => ?_) (toPhase_ignoresErr .gExit)
  exact withoutErr_andThen (commit_ignoresErr (State.latch { t with eedr := d }) e) (toPhase_ignoresErr .gExit)

theorem gValidate_ignoresErr (a : Addr) (v : Byte) : IgnoresErr fun s => .next (gValidate a v s) :=
  .next_ite (c := fun s => s.validAddr a = true) (fun _ _ => Iff.rfl) (toPhase_ignoresErr .gPoll) (fun _ _ => rfl)

theorem gPoll_ignoresErr : IgnoresErr fun s => .next (gPoll s) :=
  .next_ite (c := fun s => s.eeReady = true) (fun _ _ => Iff.rfl) (toPhase_ignoresErr .gEnter) (toPhase_ignoresErr .gPoll)

theorem gRecheck_ignoresErr : IgnoresErr fun s => .next (gRecheck s) :=
  .next_ite (c := fun s => s.eeReady = true) (fun _ _ => Iff.rfl) (toPhase_ignoresErr .gAccess) (fun _ _ => rfl)

theorem gExit_ignoresErr {result : State → Byte} (hr : ∀ s e, result (s.withErr e) = result s) :
    IgnoresErr fun s => .next (gExit (result s) s) := by
  intro s e
  simp only [hr]
  rfl

/-- No phase of a guarded access reads ERR (41_synchronizer.md R126). -/
theorem guardedAccess_ignoresErr {access : State → Result} {result : State → Byte} (a : Addr) (v : Byte)
    (hx : IgnoresErr access) (hr : ∀ s e, result (s.withErr e) = result s) :
    IgnoresErr (guardedAccess a v access result) := by
  intro s e
  simp only [guardedAccess, State.withErr_ph]
  cases s.ph with
  | idle => exact gValidate_ignoresErr a v s e
  | gValidate => exact gValidate_ignoresErr a v s e
  | gPoll => exact gPoll_ignoresErr s e
  | gEnter => rfl
  | gRecheck => exact gRecheck_ignoresErr s e
  | gAccess => exact hx s e
  | gExit => exact gExit_ignoresErr hr s e
  | _ => rfl

/-! The USART commands. -/

theorem execUsInit_ignoresErr : IgnoresErr execUsInit := by
  intro s e
  simp only [execUsInit, atomicSection, State.withErr_ph]
  split <;> rfl

theorem tStart_ignoresErr (d : Byte) : IgnoresErr fun s => .next (tStart d s) :=
  .next_ite (c := fun s => d = s.cfg.charLf ∧ s.cfg.crlf = true) (fun _ _ => Iff.rfl) (fun _ _ => rfl) (fun _ _ => rfl)

theorem tPoll_ignoresErr : IgnoresErr fun s => .next (tPoll s) :=
  .next_ite (c := fun s => s.udre = true) (fun _ _ => Iff.rfl) (toPhase_ignoresErr .tWrite) (toPhase_ignoresErr .tPoll)

theorem tWrite_ignoresErr : IgnoresErr tWrite := by
  refine .ite (c := fun s => s.udre = true) (fun _ _ => Iff.rfl) (fun s e => ?_) (fun _ _ => rfl)
  simp only [State.withErr_nxt]
  cases s.nxt <;> rfl

theorem execUsTxByte_ignoresErr (d : Byte) : IgnoresErr (execUsTxByte d) := by
  intro s e
  simp only [execUsTxByte, State.withErr_ph]
  cases s.ph with
  | idle => exact tStart_ignoresErr d s e
  | tStart => exact tStart_ignoresErr d s e
  | tPoll => exact tPoll_ignoresErr s e
  | tWrite => exact tWrite_ignoresErr s e
  | _ => rfl

theorem rPoll_ignoresErr : IgnoresErr fun s => .next (rPoll s) :=
  .next_ite (c := fun s => s.rxc = true) (fun _ _ => Iff.rfl) (toPhase_ignoresErr .rInspect) (toPhase_ignoresErr .rPoll)

theorem rInspect_ignoresErr : IgnoresErr rInspect := by
  intro s e
  simp only [rInspect, State.withErr_rxQ]
  cases s.rxQ <;> rfl

theorem rRead_ignoresErr : IgnoresErr rRead := by
  intro s e
  simp only [rRead, State.withErr_rxQ]
  cases s.rxQ <;> rfl

theorem execUsRxByte_ignoresErr : IgnoresErr execUsRxByte := by
  intro s e
  simp only [execUsRxByte, State.withErr_ph]
  cases s.ph with
  | idle => exact rPoll_ignoresErr s e
  | rPoll => exact rPoll_ignoresErr s e
  | rInspect => exact rInspect_ignoresErr s e
  | rRead => exact rRead_ignoresErr s e
  | _ => rfl

/-- Settles O13: a command of a single micro-step reads ERR only if it is ERR_READ, and no phase of the others does. -/
theorem commandsIgnoreErr : Obligations.CommandsIgnoreErr := by
  intro i s e hi
  cases i with
  | errRead => exact absurd rfl hi
  | eeRead a =>
    exact guardedAccess_ignoresErr (result := State.tmp) a s.cfg.eeSentinel (readAccess_ignoresErr a)
      (fun _ _ => rfl) s e
  | eeWrite a d =>
    exact guardedAccess_ignoresErr (result := fun _ => 0x00) a 0x00 (writeAccess_ignoresErr a d) (fun _ _ => rfl) s e
  | eeUpdate a d =>
    exact guardedAccess_ignoresErr (result := fun _ => 0x00) a 0x00 (updateAccess_ignoresErr a d) (fun _ _ => rfl) s e
  | usInit => exact execUsInit_ignoresErr s e
  | usTxByte d => exact execUsTxByte_ignoresErr d s e
  | usRxByte => exact execUsRxByte_ignoresErr s e
  | _ => rfl

end Sys2Proof.Machine

/-! SUPPORT. CS_ENTER and CS_EXIT, and the phases of a guarded access around its G_ACCESS (41_synchronizer.md R120 to
R130). -/

namespace Sys2Proof.Machine

/-- Settles O15: CS_ENTER is one write of IE and one `respond` with its value before. -/
theorem csEnterAnswersPriorIe : Obligations.CsEnterAnswersPriorIe := ⟨rfl, fun _ => rfl⟩

/-- Settles O16: CS_EXIT is one write of IE and one `respond`. -/
theorem csExitWritesToken : Obligations.CsExitWritesToken := fun _ _ => ⟨rfl, rfl⟩

section Phases

variable {i : Instr} {a : Addr} {s : State} (hi : addressOf i = some a)

include hi

theorem exec_of_gPoll (hp : s.ph = .gPoll) : exec i s = .next (gPoll s) := by
  obtain ⟨v, access, result, he⟩ := exec_of_address hi s
  simp only [he, guardedAccess, hp]

theorem exec_of_gEnter (hp : s.ph = .gEnter) : exec i s = .next (gEnter s) := by
  obtain ⟨v, access, result, he⟩ := exec_of_address hi s
  simp only [he, guardedAccess, hp]

theorem exec_of_gRecheck (hp : s.ph = .gRecheck) : exec i s = .next (gRecheck s) := by
  obtain ⟨v, access, result, he⟩ := exec_of_address hi s
  simp only [he, guardedAccess, hp]

end Phases

theorem gPoll_eq (s : State) : gPoll s = s.toPhase (if s.eeReady then .gEnter else .gPoll) := by
  unfold gPoll
  split <;> rfl

theorem gRecheck_of_ready {s : State} (h : s.eeReady = true) : gRecheck s = s.toPhase .gAccess := if_pos h

theorem gRecheck_of_busy {s : State} (h : s.eeReady = false) : gRecheck s = s.exitSection.toPhase .gPoll :=
  if_neg (by rw [h]; exact Bool.false_ne_true)

/-- Settles O17: G_POLL is one write of PH. -/
theorem pollSpinsUntilReady : Obligations.PollSpinsUntilReady := by
  intro i a s hi hp
  rw [exec_of_gPoll hi hp, gPoll_eq]
  rfl

/-- Settles O18: G_ENTER is the entry into the block's section and one write of PH. -/
theorem enterSavesAndMasks : Obligations.EnterSavesAndMasks := fun _ _ _ => exec_of_gEnter

/-- Settles O19: the two clauses are the branches of G_RECHECK. -/
theorem recheckAccessesOrLeaves : Obligations.RecheckAccessesOrLeaves := by
  intro i a s hi hp
  rw [exec_of_gRecheck hi hp]
  refine ⟨fun hready => ?_, fun hbusy => ?_⟩
  · rw [gRecheck_of_ready (s.eeReady_iff.2 hready)]
    rfl
  · have hnot : s.eeReady = false := by rcases hbusy with hb | hb <;> simp [State.eeReady, hb]
    rw [gRecheck_of_busy hnot]
    rfl

/-- G_EXIT of a guarded access (41_synchronizer.md R130). -/
theorem guardedAccess_of_gExit {s : State} (hp : s.ph = .gExit) (a : Addr) (v : Byte) (access : State → Result)
    (result : State → Byte) : guardedAccess a v access result s = .next (gExit (result s) s) := by
  simp only [guardedAccess, hp]

/-- Settles O20: G_EXIT restores IE, and `result` is TMP for EE_READ only. -/
theorem exitRestoresAndResponds : Obligations.ExitRestoresAndResponds :=
  ⟨fun a s hp => guardedAccess_of_gExit hp a s.cfg.eeSentinel (readAccess a) State.tmp, fun a d _ hp =>
    ⟨guardedAccess_of_gExit hp a 0x00 (writeAccess a d) fun _ => 0x00,
      guardedAccess_of_gExit hp a 0x00 (updateAccess a d) fun _ => 0x00⟩⟩

end Sys2Proof.Machine

/-! SUPPORT. What one step does to IE, inside and outside the block's own sections (41_synchronizer.md R124, R133). -/

namespace Sys2Proof.Machine

/-- IE as the block's caller has it: IE itself, or, while the block's own section is open, the value in SAV that the exit of
that section restores (41_synchronizer.md R128 to R130, R135). -/
def State.callerIe (s : State) : Bool := if s.ph.masked then s.sav else s.ie

/-- The block's own section, if it is open, has IE = 0 (41_synchronizer.md R126, R135). -/
def State.sectionMasked (s : State) : Prop := s.ph.masked = true → s.ie = false

/-- The value that a command leaves in IE as its caller has it: only CS_ENTER and CS_EXIT write it (10_state.md R21). -/
def callerIeAfter (b : Bool) : Instr → Bool
  | .csEnter => false
  | .csExit t => t
  | _ => b

theorem callerIeAfter_of_not_section {i : Instr} (h : isSectionCommand i = false) (b : Bool) :
    callerIeAfter b i = b := by
  cases i with
  | csEnter => cases h
  | csExit t => cases h
  | _ => rfl

section Views

variable {s t : State}

theorem State.callerIe_of_masked (h : s.ph.masked = true) : s.callerIe = s.sav := if_pos h

theorem State.callerIe_of_unmasked (h : s.ph.masked = false) : s.callerIe = s.ie := by
  rw [State.callerIe, h, if_neg Bool.false_ne_true]

theorem State.callerIe_of_idle (h : s.ph = .idle) : s.callerIe = s.ie := State.callerIe_of_unmasked (by rw [h]; rfl)

theorem callerIe_congr (hp : t.ph = s.ph) (hi : t.ie = s.ie) (hs : t.sav = s.sav) : t.callerIe = s.callerIe := by
  simp only [State.callerIe, hp, hi, hs]

/-- Outside the block's sections, before and after, IE is the caller's. -/
theorem callerIe_of_outside (hs : s.ph.masked = false) (ht : t.ph.masked = false) (hi : t.ie = s.ie) :
    t.callerIe = s.callerIe := by
  rw [State.callerIe_of_unmasked ht, State.callerIe_of_unmasked hs, hi]

/-- Inside one of the block's sections, before and after, SAV is the caller's IE. -/
theorem callerIe_of_inside (hs : s.ph.masked = true) (ht : t.ph.masked = true) (hsav : t.sav = s.sav) :
    t.callerIe = s.callerIe := by
  rw [State.callerIe_of_masked ht, State.callerIe_of_masked hs, hsav]

@[simp] theorem State.taken_callerIe (s : State) : s.taken.callerIe = s.callerIe :=
  callerIe_congr (State.taken_ph s) (State.taken_ie s) (State.taken_sav s)

/-- IE is the caller's, but for the block's own sections, where it is 0. -/
theorem State.sectionMasked.ie (h : s.sectionMasked) : s.ie = if s.ph.masked then false else s.callerIe := by
  cases hp : s.ph.masked with
  | true => exact h hp
  | false => exact (State.callerIe_of_unmasked hp).symm

/-- The model's `keptMasked` says that the caller has IE = 0, and that the block's own section has it too. -/
theorem State.keptMasked_iff : s.keptMasked ↔ s.sectionMasked ∧ s.callerIe = false := by
  constructor
  · rintro ⟨hie, hsav⟩
    refine ⟨fun _ => hie, ?_⟩
    cases hp : s.ph.masked with
    | true => exact (State.callerIe_of_masked hp).trans (hsav hp)
    | false => exact (State.callerIe_of_unmasked hp).trans hie
  · rintro ⟨hsec, hcaller⟩
    refine ⟨?_, fun hp => (State.callerIe_of_masked hp).symm.trans hcaller⟩
    rw [hsec.ie, hcaller, ite_self]

theorem sectionMasked_of_idle (h : s.ph = .idle) : s.sectionMasked := by
  rw [State.sectionMasked, h]
  nofun

end Views

/-! The micro-steps of the commands. -/

section Commands

variable {i : Instr} {a : Addr} {s t : State}

/-- G_ACCESS of a command goes on to G_EXIT and leaves IE and SAV alone; its other phases are those of every guarded access
(41_synchronizer.md R126). -/
theorem exec_of_address_access (hi : addressOf i = some a) (s : State) :
    ∃ v access result, exec i s = guardedAccess a v access result s ∧
      ∀ {t}, access s = .next t → t.ph = .gExit ∧ t.ie = s.ie ∧ t.sav = s.sav := by
  cases i with
  | eeRead b =>
    cases hi
    refine ⟨_, readAccess a, State.tmp, rfl, fun hx => ?_⟩
    obtain ⟨-, rfl⟩ := readAccess_next hx
    exact ⟨rfl, rfl, rfl⟩
  | eeWrite b d =>
    cases hi
    refine ⟨_, writeAccess a d, fun _ => 0x00, rfl, fun hx => ?_⟩
    obtain ⟨-, rfl⟩ := writeAccess_next hx
    exact ⟨rfl, rfl, rfl⟩
  | eeUpdate b d =>
    cases hi
    refine ⟨_, updateAccess a d, fun _ => 0x00, rfl, fun hx => ?_⟩
    obtain ⟨-, ⟨-, rfl⟩ | ⟨-, -, rfl⟩⟩ := updateAccess_next hx <;> exact ⟨rfl, rfl, rfl⟩
  | _ => cases hi

/-- A guarded access gives IE back to its caller as it found it (41_synchronizer.md R128 to R130). -/
theorem exec_callerIe_of_address (hi : addressOf i = some a) (h : exec i s = .next t) : t.callerIe = s.callerIe := by
  obtain ⟨v, access, result, he, haccess⟩ := exec_of_address_access hi s
  rcases guardedAccess_next (he ▸ h) with ⟨hp, rfl⟩ | ⟨hp, rfl⟩ | ⟨hp, rfl⟩ | ⟨hp, rfl⟩ | ⟨hp, hx⟩ | ⟨hp, rfl⟩
  · have outside : s.ph.masked = false := by rcases hp with hp | hp <;> rw [hp] <;> rfl
    rcases gValidate_cases a v s with ⟨-, e⟩ | ⟨-, e⟩ <;> rw [e] <;> exact callerIe_of_outside outside rfl rfl
  · have outside : s.ph.masked = false := by rw [hp]; rfl
    unfold gPoll
    split <;> exact callerIe_of_outside outside rfl rfl
  · exact (State.callerIe_of_unmasked (by rw [hp]; rfl)).symm
  · have inside : s.ph.masked = true := by rw [hp]; rfl
    cases hr : s.eeReady with
    | true => rw [gRecheck_of_ready hr]; exact callerIe_of_inside inside rfl rfl
    | false => rw [gRecheck_of_busy hr]; exact (State.callerIe_of_masked inside).symm
  · obtain ⟨hph, -, hsav⟩ := haccess hx
    exact callerIe_of_inside (by rw [hp]; rfl) (by rw [hph]; rfl) hsav
  · exact (State.callerIe_of_masked (by rw [hp]; rfl)).symm

/-- US_INIT gives IE back to its caller as it found it (41_synchronizer.md R135). -/
theorem execUsInit_callerIe (h : execUsInit s = .next t) : t.callerIe = s.callerIe := by
  rcases atomicSection_next h with ⟨hp, rfl⟩ | ⟨hp, rfl⟩ | ⟨hp, rfl⟩
  · have outside : s.ph.masked = false := by rcases hp with hp | hp <;> rw [hp] <;> rfl
    exact (State.callerIe_of_unmasked outside).symm
  · exact callerIe_of_inside (by rw [hp]; rfl) rfl rfl
  · exact (State.callerIe_of_masked (by rw [hp]; rfl)).symm

/-- US_TX_BYTE opens no section and writes no IE (43_usart.md R176 to R178). -/
theorem execUsTxByte_callerIe {d : Byte} (h : execUsTxByte d s = .next t) : t.callerIe = s.callerIe := by
  rcases execUsTxByte_next h with ⟨hp, rfl⟩ | ⟨hp, rfl⟩ | ⟨hp, hx⟩
  · have outside : s.ph.masked = false := by rcases hp with hp | hp <;> rw [hp] <;> rfl
    rcases tStart_cases d s with ⟨-, -, e⟩ | ⟨-, e⟩ <;> rw [e] <;> exact callerIe_of_outside outside rfl rfl
  · unfold tPoll
    split <;> exact callerIe_of_outside (by rw [hp]; rfl) rfl rfl
  · obtain ⟨-, ⟨b, -, rfl⟩ | ⟨-, rfl⟩⟩ := tWrite_next hx <;> exact callerIe_of_outside (by rw [hp]; rfl) rfl rfl

/-- US_RX_BYTE opens no section and writes no IE (43_usart.md R180 to R182). -/
theorem execUsRxByte_callerIe (h : execUsRxByte s = .next t) : t.callerIe = s.callerIe := by
  rcases execUsRxByte_next h with ⟨hp, rfl⟩ | ⟨hp, hx⟩ | ⟨hp, hx⟩
  · have outside : s.ph.masked = false := by rcases hp with hp | hp <;> rw [hp] <;> rfl
    unfold rPoll
    split <;> exact callerIe_of_outside outside rfl rfl
  · obtain ⟨e, q, -, rfl⟩ := rInspect_next hx
    exact callerIe_of_outside (by rw [hp]; rfl) rfl rfl
  · obtain ⟨e, q, -, rfl⟩ := rRead_next hx
    exact callerIe_of_outside (by rw [hp]; rfl) rfl rfl

/-- What a micro-step of a command does to IE as the caller has it. -/
theorem exec_callerIe (hp : s.ph = .idle ∨ hasPhase i s.ph = true) (h : exec i s = .next t) :
    t.callerIe = callerIeAfter s.callerIe i := by
  cases i with
  | csEnter => cases h; rfl
  | csExit b => cases h; rfl
  | eeRead a => exact exec_callerIe_of_address (i := .eeRead a) rfl h
  | eeWrite a d => exact exec_callerIe_of_address (i := .eeWrite a d) rfl h
  | eeUpdate a d => exact exec_callerIe_of_address (i := .eeUpdate a d) rfl h
  | usInit => exact execUsInit_callerIe h
  | usTxByte d => exact execUsTxByte_callerIe h
  | usRxByte => exact execUsRxByte_callerIe h
  | _ => cases h; exact (State.callerIe_of_idle (idle_of_no_phases rfl hp)).symm

/-- Only the commands of the EEPROM and of the USART's two bytes raise faults, and no section command does. -/
theorem not_section_of_fault {r : Fault} (h : exec i s = .fault r) : isSectionCommand i = false := by
  cases i with
  | csEnter => cases h
  | csExit b => cases h
  | _ => rfl

/-- A fault is recorded with IE, SAV and PH as they were (60_exceptions.md R210). -/
theorem atRaise_ie_sav (i : Instr) (s : State) : (atRaise i s).ie = s.ie ∧ (atRaise i s).sav = s.sav := by
  rcases atRaise_cases i s with e | ⟨a, d, v, -, e⟩ <;> rw [e] <;> exact ⟨rfl, rfl⟩

theorem runCommand_callerIe (hp : s.ph = .idle ∨ hasPhase i s.ph = true) (h : runCommand i s = .next t) :
    t.callerIe = callerIeAfter s.callerIe i := by
  rcases runCommand_next h with hx | ⟨r, hx, rfl⟩
  · exact exec_callerIe hp hx
  · obtain ⟨hie, hsav⟩ := atRaise_ie_sav i s
    obtain ⟨-, hph, -⟩ := atRaise_frame i s
    rw [callerIeAfter_of_not_section (not_section_of_fault hx)]
    exact callerIe_congr hph hie hsav

/-- The block's section is entered with IE = 0, and no micro-step inside it sets IE. -/
theorem runCommand_sectionMasked (hs : s.sectionMasked) (h : runCommand i s = .next t) : t.sectionMasked := by
  rcases runCommand_next h with hx | ⟨r, -, rfl⟩
  · rcases exec_onward hx with hp | ho
    · exact sectionMasked_of_idle hp
    · intro hm
      rcases ho.masked hm with h0 | ⟨hms, hie⟩
      · exact h0
      · exact hie.trans (hs hms)
  · obtain ⟨-, hph, -⟩ := atRaise_frame i s
    obtain ⟨hie, -⟩ := atRaise_ie_sav i s
    intro hm
    rw [State.recordFault_ph, hph] at hm
    exact hie.trans (hs hm)

end Commands

/-! The turns of the agents. -/

section Turns

variable {s t : State}

/-- No agent but the main line and the resets writes SAV (10_state.md R24). -/
theorem agentStep_sav {e : Event} (h : agentStep e s = .next t) (hm : e ≠ .main) (hr : e.isReset = false) :
    t.sav = s.sav := by
  cases e with
  | main => exact absurd rfl hm
  | coldReset d => cases hr
  | warmReset d => cases hr
  | irq x =>
    cases h
    split
    · simp [interfere_frame x s]
    · rfl
  | eep x => cases h; rcases eepStep_cases x s with ⟨-, e⟩ | ⟨-, e⟩ <;> rw [e]
  | txHandOver => cases h; rcases txHandOver_cases s with ⟨-, -, -, e⟩ | ⟨-, e⟩ <;> rw [e]
  | txComplete => cases h; rcases txComplete_cases s with ⟨-, e⟩ | ⟨-, e⟩ <;> rw [e]
  | rxArrive x p o f => cases h; rcases rxArrive_cases x p o f s with ⟨-, -, e⟩ | ⟨-, -, e⟩ | ⟨-, e⟩ <;> rw [e]
  | setExtIrq b => cases h; rfl
  | spmStart => cases h; split <;> rfl
  | spmEnd => cases h; rfl
  | hostWord w => cases h; rfl

theorem agentStep_callerIe {e : Event} (h : agentStep e s = .next t) (hm : e ≠ .main) (hr : e.isReset = false) :
    t.callerIe = s.callerIe :=
  have hk := agentStep_sequencerKept h hm hr
  callerIe_congr hk.ph hk.ie (agentStep_sav h hm hr)

/-- A reset aborts the command in flight with IE = 0 (70_reset_and_hazards.md R231). -/
theorem agentStep_reset {e : Event} (h : agentStep e s = .next t) (hr : e.isReset = true) :
    t.ph = .idle ∧ t.ie = false := by
  cases e with
  | coldReset d => cases h; exact ⟨rfl, rfl⟩
  | warmReset d => cases h; exact ⟨rfl, rfl⟩
  | _ => cases hr

/-- A command is presented only in a step in which HOST presents a word. -/
theorem presented_of_not_presents (h : s.presents = false) : s.presented = none := by
  unfold State.presented
  split
  · next hturn hp hport => simp [State.presents, hturn, hp, hport] at h
  · rfl

/-- What HOST's step does to IE as the caller has it: what the command that it presents does, if it presents one. -/
theorem hostStep_callerIe (hturn : s.turn = .main) (hp : s.ph = .idle) (h : hostStep s.taken = .next t) :
    t.callerIe = s.presented.elim s.callerIe (callerIeAfter s.callerIe) := by
  rcases hostStep_next h with ⟨hport, rfl⟩ | ⟨w, rest, hport, hw⟩ <;> rw [State.taken_port] at hport
  · rw [presented_of_not_presents (by simp [State.presents, hport]), Option.elim_none, State.taken_callerIe]
  rw [presented_of_port hturn hp hport]
  rcases hw with ⟨e, hd, rfl⟩ | ⟨i, hd, hrun⟩ <;> rw [hd]
  · exact State.taken_callerIe s
  · have hidle : s.taken.ph = .idle := (State.taken_ph s).trans hp
    rw [runCommand_callerIe (s := (s.taken.withPort rest).accept w) (.inl hidle) hrun, ← State.taken_callerIe s]
    rfl

theorem seqStep_callerIe (hp : s.ph ≠ .idle) (h : seqStep s = .next t) : t.callerIe = s.callerIe := by
  rcases seqStep_next h with ⟨-, rfl⟩ | ⟨-, i, -, hph, hrun⟩
  · rfl
  · have hi : isSectionCommand i = false := by
      cases i with
      | csEnter => cases hph
      | csExit b => cases hph
      | _ => rfl
    rw [runCommand_callerIe (.inr hph) hrun, callerIeAfter_of_not_section hi]

/-- What a step does to IE as the caller has it: only the issue of CS_ENTER or CS_EXIT changes it (41_synchronizer.md
R133). -/
theorem step_callerIe (hr : s.turn.isReset = false) (h : step s = .next t) :
    t.callerIe = s.presented.elim s.callerIe (callerIeAfter s.callerIe) := by
  by_cases hm : s.turn = .main
  · rw [step_of_turn hm] at h
    rcases mainStep_next h with ⟨hp, h⟩ | ⟨hp, h⟩
    · exact hostStep_callerIe hm ((State.taken_ph s).symm.trans hp) h
    · have hp' : s.ph ≠ .idle := by rwa [State.taken_ph] at hp
      rw [presented_of_not_presents (by simp [State.presents, hp']), seqStep_callerIe hp h]
      exact State.taken_callerIe s
  · rw [presented_of_not_presents (by simp [State.presents, hm]), agentStep_callerIe (step_eq s ▸ h) hm hr]
    exact State.taken_callerIe s

theorem mainStep_sectionMasked (hs : s.sectionMasked) (h : mainStep s = .next t) : t.sectionMasked := by
  rcases mainStep_next h with ⟨hp, h⟩ | ⟨hp, h⟩
  · rcases hostStep_next h with ⟨-, rfl⟩ | ⟨w, rest, -, ⟨e, -, rfl⟩ | ⟨i, -, hrun⟩⟩
    · exact hs
    · exact hs
    · exact runCommand_sectionMasked (s := (s.withPort rest).accept w) hs hrun
  · rcases seqStep_next h with ⟨-, rfl⟩ | ⟨-, i, -, -, hrun⟩
    · exact hs
    · exact runCommand_sectionMasked hs hrun

/-- Every step keeps the block's own section masked. -/
theorem step_sectionMasked (hs : s.sectionMasked) (h : step s = .next t) : t.sectionMasked := by
  have hs' : s.taken.sectionMasked := by rwa [State.sectionMasked, State.taken_ph, State.taken_ie]
  by_cases hm : s.turn = .main
  · rw [step_of_turn hm] at h
    exact mainStep_sectionMasked hs' h
  · cases hr : s.turn.isReset with
    | true => exact sectionMasked_of_idle (agentStep_reset (step_eq s ▸ h) hr).1
    | false =>
      have hk := agentStep_sequencerKept (step_eq s ▸ h) hm hr
      rwa [State.sectionMasked, hk.ph, hk.ie]

end Turns

/-- The one command that sets IE as a caller with IE = 0 has it is CS_EXIT 1 (41_synchronizer.md R122). -/
theorem callerIeAfter_false {i : Instr} (h : i ≠ .csExit true) : callerIeAfter false i = false := by
  cases i with
  | csExit b =>
    cases b with
    | false => rfl
    | true => exact absurd rfl h
  | _ => rfl

/-- Settles O22: the block's own section stays masked, and IE as the caller has it stays 0 unless CS_EXIT 1 is issued. -/
theorem callerMaskIsKept : Obligations.CallerMaskIsKept := by
  intro s t hs hne h
  obtain ⟨hsection, hcaller⟩ := State.keptMasked_iff.1 hs
  refine State.keptMasked_iff.2 ⟨step_sectionMasked hsection h, ?_⟩
  cases hr : s.turn.isReset with
  | true =>
    obtain ⟨hp, hie⟩ := agentStep_reset (step_eq s ▸ h) hr
    exact (State.callerIe_of_idle hp).trans hie
  | false =>
    rw [step_callerIe hr h, hcaller]
    cases hpres : s.presented with
    | none => rfl
    | some i => exact callerIeAfter_false fun hi => hne (hpres.trans (congrArg some hi))

end Sys2Proof.Machine

/-! SUPPORT. IE along a run in which HOST presents a given sequence of commands, and the sequences of well-nested sections
(41_synchronizer.md R121, R124). -/

namespace Sys2Proof.Machine

section Runs

variable {s t : State} {c : Instr} {cs cmds : List Instr}

/-- HOST presents the first command of the sequence on its port. -/
theorem presented_of_presents (h : s.presents = true) (hport : (c :: cs).map encode <+: s.port) : s.presented = some c := by
  obtain ⟨later, hport⟩ := hport
  simp only [State.presents, Bool.and_eq_true, decide_eq_true_eq] at h
  obtain ⟨⟨hturn, hp⟩, -⟩ := h
  rw [presented_of_port hturn hp hport.symm, decodeOfEncode c]
  rfl

/-- The rest of the sequence is on the port after a step in which HOST presents its first command. -/
theorem step_port_of_presents (hpres : s.presents = true) (hport : (c :: cs).map encode <+: s.port)
    (h : step s = .next t) : cs.map encode <+: t.port := by
  obtain ⟨later, hport⟩ := hport
  have hstep := step_port h
  rw [if_pos hpres, ← hport] at hstep
  obtain ⟨w, hw⟩ := hstep
  exact ⟨later, (List.cons.inj hw).2⟩

/-- The sequence stays on the port through a step in which HOST presents no word. -/
theorem step_port_of_not_presents (hpres : s.presents = false) (hport : cmds.map encode <+: s.port)
    (h : step s = .next t) : cmds.map encode <+: t.port := by
  have hstep := step_port h
  rw [hpres, if_neg Bool.false_ne_true] at hstep
  obtain ⟨extra, hstep⟩ := hstep
  exact hport.trans ⟨extra, hstep.symm⟩

/-- Along a run IE as the caller has it is what the commands presented so far make of it, whatever turns the other agents
take. -/
theorem runSteps_callerIe {k : Nat} (hn : NoEvent Event.isReset s) (hport : cmds.map encode <+: s.port)
    (h : runSteps k s = .next t) (hc : presentations k s ≤ cmds.length) :
    t.callerIe = (cmds.take (presentations k s)).foldl callerIeAfter s.callerIe := by
  induction k generalizing s cmds with
  | zero => cases h; rfl
  | succ k ih =>
    obtain ⟨u, hu, hrun⟩ := runSteps_succ_next h
    have hcount : presentations (k + 1) s = (if s.presents then 1 else 0) + presentations k u := countSteps_succ hu k
    have hcaller := step_callerIe (noEvent_turn hn) hu
    have hn' := noEvent_step hn hu
    rw [hcount] at hc ⊢
    cases hpres : s.presents with
    | false =>
      simp only [hpres, Bool.false_eq_true, if_false, Nat.zero_add] at hc ⊢
      rw [presented_of_not_presents hpres, Option.elim_none] at hcaller
      rw [← hcaller]
      exact ih hn' (step_port_of_not_presents hpres hport hu) hrun hc
    | true =>
      simp only [hpres, if_true, Nat.add_comm 1] at hc ⊢
      cases cmds with
      | nil => cases hc
      | cons c cs =>
        rw [presented_of_presents hpres hport, Option.elim_some] at hcaller
        rw [List.take_succ_cons, List.foldl_cons, ← hcaller]
        exact ih hn' (step_port_of_presents hpres hport hu) hrun (Nat.le_of_succ_le_succ hc)

end Runs

/-! Well-nested sequences. -/

/-- A section leaves what the token of its CS_EXIT says (41_synchronizer.md R122). -/
theorem foldl_callerIeAfter_atomic (b c : Bool) (body : List Instr) :
    (atomic b body).foldl callerIeAfter c = b := by
  rw [atomic, List.foldl_cons, List.foldl_append]
  rfl

/-- Well-nested sections give back the value they began with (41_synchronizer.md R124). -/
theorem WellNested.foldl_callerIeAfter {b : Bool} {cmds : List Instr} (h : WellNested b cmds) :
    cmds.foldl callerIeAfter b = b := by
  induction h with
  | done b => rfl
  | command b i rest hi _ ih => rwa [List.foldl_cons, callerIeAfter_of_not_section hi]
  | enclosed b body rest _ _ _ ih => rwa [List.foldl_append, foldl_callerIeAfter_atomic]

/-- CS_EXIT 1 stands in a well-nested sequence only where it begins with IE = 1: every token inside a section is 0
(41_synchronizer.md R121). -/
theorem WellNested.no_exit_true {b : Bool} {cmds : List Instr} (h : WellNested b cmds) (hb : b = false) :
    Instr.csExit true ∉ cmds := by
  induction h with
  | done b => exact List.not_mem_nil
  | command b i rest hi _ ih =>
    intro hmem
    rcases List.mem_cons.1 hmem with rfl | hmem
    · cases hi
    · exact ih hb hmem
  | enclosed b body rest _ _ ihbody ihrest =>
    subst hb
    simpa [atomic] using ⟨ihbody rfl, ihrest rfl⟩

/-- Commands other than CS_EXIT 1 do not set IE (41_synchronizer.md R133). -/
theorem foldl_callerIeAfter_false {cmds : List Instr} (h : Instr.csExit true ∉ cmds) :
    cmds.foldl callerIeAfter false = false := by
  induction cmds with
  | nil => rfl
  | cons i rest ih =>
    obtain ⟨hi, hrest⟩ := not_or.1 (mt List.mem_cons.2 h)
    rw [List.foldl_cons, callerIeAfter_false (Ne.symm hi)]
    exact ih hrest

/-- Past the CS_ENTER of a section and before its CS_EXIT the caller has IE = 0. -/
theorem foldl_callerIeAfter_inside {body : List Instr} (h : WellNested false body) (b : Bool) {n : Nat} (hpos : 0 < n)
    (hlt : n < (atomic b body).length) : ((atomic b body).take n).foldl callerIeAfter b = false := by
  obtain ⟨m, rfl⟩ : ∃ m, n = m + 1 := ⟨n - 1, by omega⟩
  have hm : m ≤ body.length := by simp [atomic] at hlt; omega
  rw [atomic, List.take_succ_cons, List.take_append_of_le_length hm, List.foldl_cons]
  exact foldl_callerIeAfter_false fun hmem => h.no_exit_true rfl (List.mem_of_mem_take hmem)

/-- Settles O23: the commands presented give IE back to the caller, which at IDLE has it. -/
theorem nestedSectionsRestoreIe : Obligations.NestedSectionsRestoreIe := by
  intro k s t cmds later hp hport hnested hn h hidle hc
  have hrun := runSteps_callerIe hn ⟨later, hport.symm⟩ h hc.le
  rw [hc, List.take_length, State.callerIe_of_idle hp, hnested.foldl_callerIeAfter] at hrun
  exact (State.callerIe_of_idle hidle).symm.trans hrun

/-- Settles O24: inside the section the caller has IE = 0, and so has the block's own section. -/
theorem sectionIsMaskedThroughout : Obligations.SectionIsMaskedThroughout := by
  intro k s t body later hp hport hnested hn h hpos hlt
  have hsection : t.sectionMasked := runSteps_induction (fun _ _ => step_sectionMasked) (sectionMasked_of_idle hp) h
  have hcaller : t.callerIe = false := by
    rw [runSteps_callerIe hn ⟨later, hport.symm⟩ h hlt.le, State.callerIe_of_idle hp]
    exact foldl_callerIeAfter_inside hnested s.ie hpos hlt
  obtain ⟨hie, -⟩ := State.keptMasked_iff.2 ⟨hsection, hcaller⟩
  exact hie

end Sys2Proof.Machine

/-! SUPPORT. A guarded access by the main line's turns: its phases, and IE in them (41_synchronizer.md R132). -/

namespace Sys2Proof.Machine

/-- The phases to which one micro-step leads from a phase of a guarded access after G_VALIDATE (41_synchronizer.md R127 to
R130); `exec_guardedNext` says that it does. -/
def guardedNext : Phase → List Phase
  | .gPoll => [.gPoll, .gEnter]
  | .gEnter => [.gRecheck]
  | .gRecheck => [.gAccess, .gPoll]
  | .gAccess => [.gExit]
  | .gExit => [.idle]
  | _ => []

/-- The phases to which `n` micro-steps of a guarded access lead from `p`. -/
def phasesAfter : Nat → Phase → List Phase
  | 0, p => [p]
  | n + 1, p => (guardedNext p).flatMap (phasesAfter n)

/-- A run that takes `m + n` of its steps from states that `p` names is a run that takes `m` such steps, followed by one that
takes `n`. -/
theorem countSteps_split {p : State → Bool} {k m n : Nat} {s t : State} (h : runSteps k s = .next t)
    (hc : countSteps p k s = m + n) :
    ∃ j l u, k = j + l ∧ runSteps j s = .next u ∧ runSteps l u = .next t ∧ countSteps p j s = m ∧
      countSteps p l u = n := by
  induction k generalizing s m with
  | zero =>
    obtain ⟨rfl, rfl⟩ : m = 0 ∧ n = 0 := by rw [countSteps_zero] at hc; omega
    exact ⟨0, 0, s, rfl, rfl, h, rfl, rfl⟩
  | succ k ih =>
    cases m with
    | zero => exact ⟨0, k + 1, s, by omega, rfl, h, rfl, by omega⟩
    | succ m =>
      obtain ⟨v, hv, hrun⟩ := runSteps_succ_next h
      rw [countSteps_succ hv] at hc
      obtain ⟨m', hm', hrest⟩ : ∃ m', (if p s then 1 else 0) + m' = m + 1 ∧ countSteps p k v = m' + n := by
        by_cases hp : p s = true
        · rw [if_pos hp] at hc ⊢
          exact ⟨m, by omega, by omega⟩
        · rw [if_neg hp] at hc ⊢
          exact ⟨m + 1, by omega, by omega⟩
      obtain ⟨j, l, u, rfl, hj, hl, hcj, hcl⟩ := ih hrun hrest
      refine ⟨j + 1, l, u, by omega, ?_, hl, ?_, hcl⟩
      · rw [runSteps_succ, hv, andThen_of_next, hj]
      · rw [countSteps_succ hv, hcj, hm']

/-- Command `i` is in a guarded access past its G_VALIDATE, or has answered, and its caller has IE = `b`. -/
structure GuardedRun (i : Instr) (b : Bool) (s : State) : Prop where
  inv : Inv s
  running : s.seqStopped = false
  cmd : decode s.cmd = .ok i
  phase : (s.ph = .idle ∧ s.rspValid = true) ∨ s.ph.validated = true
  callerIe : s.callerIe = b

section Guarded

variable {i : Instr} {a : Addr} {b : Bool} {s t : State}

/-- In a guarded access IE is 0 in G_RECHECK, G_ACCESS and G_EXIT, and the caller's elsewhere (41_synchronizer.md R132). -/
theorem GuardedRun.ie (hg : GuardedRun i b s) :
    s.ie = if s.ph = .gRecheck ∨ s.ph = .gAccess ∨ s.ph = .gExit then false else b := by
  have hsection : s.sectionMasked := hg.inv.maskedIe
  rw [hsection.ie, hg.callerIe]
  have hphase : s.ph = .idle ∨ s.ph.validated = true := hg.phase.imp_left And.left
  cases hp : s.ph <;> simp_all [Phase.masked, Phase.validated]

/-- Where a micro-step of a guarded access leads from a phase after G_VALIDATE. -/
theorem exec_guardedNext (hi : addressOf i = some a) (hv : s.ph.validated = true) (h : exec i s = .next t) :
    t.ph ∈ guardedNext s.ph ∧ ((t.ph = .idle ∧ t.rspValid = true) ∨ t.ph.validated = true) := by
  obtain ⟨v, access, result, he, haccess⟩ := exec_of_address_access hi s
  rcases guardedAccess_next (he ▸ h) with ⟨hp | hp, -⟩ | ⟨hp, rfl⟩ | ⟨hp, rfl⟩ | ⟨hp, rfl⟩ | ⟨hp, hx⟩ | ⟨hp, rfl⟩ <;>
    rw [hp] at hv ⊢
  · cases hv
  · cases hv
  · rw [gPoll_eq]
    cases s.eeReady with
    | true => exact ⟨List.mem_cons_of_mem _ List.mem_cons_self, .inr rfl⟩
    | false => exact ⟨List.mem_cons_self, .inr rfl⟩
  · exact ⟨List.mem_cons_self, .inr rfl⟩
  · cases hr : s.eeReady with
    | true => rw [gRecheck_of_ready hr]; exact ⟨List.mem_cons_self, .inr rfl⟩
    | false => rw [gRecheck_of_busy hr]; exact ⟨List.mem_cons_of_mem _ List.mem_cons_self, .inr rfl⟩
  · obtain ⟨hph, -, -⟩ := haccess hx
    rw [hph]
    exact ⟨List.mem_cons_self, .inr rfl⟩
  · exact ⟨List.mem_cons_self, .inl ⟨rfl, rfl⟩⟩

/-- Under the invariant a guarded access raises no fault: G_ACCESS finds EE_READY (20_memory.md R63). -/
theorem exec_not_fault_of_address (hinv : Inv s) (hi : addressOf i = some a) {r : Fault} : exec i s ≠ .fault r := by
  intro h
  rcases exec_fault h with ⟨-, hp, hr, -⟩ | ⟨-, -, -, d, rfl⟩ | ⟨-, -, -, rfl⟩
  · rw [hinv.accessReady hp] at hr
    cases hr
  · cases hi
  · cases hi

/-- A step in which SEQ moves a guarded access on. -/
theorem exec_of_guarded_step (hg : GuardedRun i b s) (hi : addressOf i = some a) (hm : s.turn = .main)
    (hv : s.ph.validated = true) (h : step s = .next t) : exec i s.taken = .next t := by
  have hp : s.ph ≠ .idle := fun hp => by rw [hp] at hv; cases hv
  rw [step_of_seqNow ⟨hm, hp, hg.running⟩ hg.cmd (hasPhase_of_validated hi hv)] at h
  rcases runCommand_next h with hx | ⟨r, hx, -⟩
  · exact hx
  · exact absurd hx (exec_not_fault_of_address (taken_keeps_inv hg.inv) hi)

/-- One step of a guarded access that has not answered: a turn of the main line moves it to a next phase, and the other
turns leave its phase. -/
theorem GuardedRun.after_step (hg : GuardedRun i b s) (hi : addressOf i = some a) (hr : s.turn.isReset = false)
    (hp : s.turn = .main → s.ph ≠ .idle) (h : step s = .next t) :
    GuardedRun i b t ∧ t.ph ∈ if s.turn = .main then guardedNext s.ph else [s.ph] := by
  have hpres : s.presents = false := by
    by_cases hm : s.turn = .main <;> simp [State.presents, hm, hp]
  have hcaller : t.callerIe = b := by
    rw [step_callerIe hr h, presented_of_not_presents hpres, Option.elim_none, hg.callerIe]
  have hinv := step_keeps_inv hg.inv h
  by_cases hm : s.turn = .main
  · have hv : s.ph.validated = true := hg.phase.resolve_left fun hidle => hp hm hidle.1
    have hx := exec_of_guarded_step hg hi hm hv h
    obtain ⟨hnext, hphase⟩ := exec_guardedNext hi (by rwa [State.taken_ph]) hx
    obtain ⟨-, -, hcmd, -, -, -, -, -, -, hstop, -⟩ := exec_frame hx
    rw [State.taken_ph] at hnext
    rw [State.taken_cmd] at hcmd
    rw [State.taken_seqStopped] at hstop
    rw [if_pos hm]
    exact ⟨⟨hinv, hstop.trans hg.running, hcmd ▸ hg.cmd, hphase, hcaller⟩, hnext⟩
  · have hk := agentStep_sequencerKept (step_eq s ▸ h) hm hr
    have hph : t.ph = s.ph := hk.ph.trans (State.taken_ph s)
    have hrsp : t.rspValid = s.rspValid := hk.rspValid.trans (State.taken_rspValid s)
    have hcmd : t.cmd = s.cmd := hk.cmd.trans (State.taken_cmd s)
    have hstop : t.seqStopped = s.seqStopped := hk.seqStopped.trans (State.taken_seqStopped s)
    rw [if_neg hm]
    refine ⟨⟨hinv, hstop.trans hg.running, hcmd ▸ hg.cmd, ?_, hcaller⟩, List.mem_singleton.2 hph⟩
    rw [hph, hrsp]
    exact hg.phase

/-- A run of a guarded access with `n` turns of the main line, none of which finds it answered: it is in one of the phases
to which `n` micro-steps lead. -/
theorem GuardedRun.after_run {k n : Nat} (hg : GuardedRun i b s) (hi : addressOf i = some a)
    (hn : NoEvent Event.isReset s) (h : runSteps k s = .next t) (hc : mainTurns k s = n)
    (hidle : ∀ m < n, Phase.idle ∉ phasesAfter m s.ph) : GuardedRun i b t ∧ t.ph ∈ phasesAfter n s.ph := by
  induction k generalizing s n with
  | zero =>
    cases h
    cases hc
    exact ⟨hg, List.mem_singleton.2 rfl⟩
  | succ k ih =>
    obtain ⟨u, hu, hrun⟩ := runSteps_succ_next h
    rw [mainTurns, countSteps_succ hu] at hc
    have hp : s.turn = .main → s.ph ≠ .idle := by
      intro hm hp
      rw [if_pos (decide_eq_true hm)] at hc
      exact hidle 0 (by omega) (List.mem_singleton.2 hp.symm)
    obtain ⟨hg', hph⟩ := hg.after_step hi (noEvent_turn hn) hp hu
    have hn' := noEvent_step hn hu
    by_cases hm : s.turn = .main
    · rw [if_pos hm] at hph
      rw [if_pos (decide_eq_true hm)] at hc
      subst hc
      have hidle' : ∀ m < mainTurns k u, Phase.idle ∉ phasesAfter m u.ph := fun m hlt hmem =>
        hidle (m + 1) (by rw [mainTurns] at hlt; omega) (List.mem_flatMap.2 ⟨u.ph, hph, hmem⟩)
      obtain ⟨hg'', hmem⟩ := ih hg' hn' hrun rfl hidle'
      rw [Nat.add_comm]
      exact ⟨hg'', List.mem_flatMap.2 ⟨u.ph, hph, hmem⟩⟩
    · rw [if_neg hm, List.mem_singleton] at hph
      rw [if_neg (by simpa using hm), Nat.zero_add] at hc
      rw [← hph] at hidle ⊢
      exact ih hg' hn' hrun hc hidle

/-- A pass that gets to G_ACCESS ends with the response, in two micro-steps. -/
theorem GuardedRun.answered_of_gAccess {k : Nat} (hg : GuardedRun i b s) (hi : addressOf i = some a)
    (hn : NoEvent Event.isReset s) (hp : s.ph = .gAccess) (h : runSteps k s = .next t) (hc : mainTurns k s = 2) :
    t.ph = .idle ∧ t.rspValid = true ∧ t.ie = b := by
  obtain ⟨hg', hph⟩ := hg.after_run hi hn h hc (by rw [hp]; decide)
  have hidle : t.ph = .idle := by rw [hp] at hph; exact List.mem_singleton.1 hph
  refine ⟨hidle, ?_, (State.callerIe_of_idle hidle).symm.trans hg'.callerIe⟩
  rcases hg'.phase with ⟨-, hvalid⟩ | hv
  · exact hvalid
  · rw [hidle] at hv
    cases hv

/-- A run from G_ENTER with four turns of the main line: after the second one the pass has polled again, or G_ACCESS is next
and the fourth one answers. -/
theorem GuardedRun.pass_ends {k : Nat} (hg : GuardedRun i b s) (hi : addressOf i = some a)
    (hn : NoEvent Event.isReset s) (hp : s.ph = .gEnter) (h : runSteps k s = .next t) (hc : mainTurns k s = 4) :
    ∃ j u, j ≤ k ∧ runSteps j s = .next u ∧ u.ie = b ∧
      ((mainTurns j s = 2 ∧ u.ph = .gPoll) ∨ (mainTurns j s = 4 ∧ u.ph = .idle ∧ u.rspValid = true)) := by
  obtain ⟨j, l, u, rfl, hj, hl, hcj, hcl⟩ := countSteps_split (m := 2) (n := 2) h hc
  obtain ⟨hg', hph⟩ := hg.after_run hi hn hj hcj (by rw [hp]; decide)
  rw [hp] at hph
  rcases List.mem_cons.1 hph with haccess | hpoll
  · have hn' : NoEvent Event.isReset u := runSteps_induction (fun _ _ => noEvent_step) hn hj
    obtain ⟨hidle, hvalid, hie⟩ := hg'.answered_of_gAccess hi hn' haccess hl hcl
    exact ⟨j + l, t, le_rfl, h, hie, .inr ⟨hc, hidle, hvalid⟩⟩
  · have hpoll : u.ph = .gPoll := List.mem_singleton.1 hpoll
    have hie : u.ie = b := (State.callerIe_of_unmasked (by rw [hpoll]; rfl)).symm.trans hg'.callerIe
    exact ⟨j, u, Nat.le_add_right j l, hj, hie, .inl ⟨hcj, hpoll⟩⟩

end Guarded

/-- Settles O21: up to its fourth micro-step from G_ENTER on the access has not answered, so that all of them are its own. -/
theorem maskingIsBounded : Obligations.MaskingIsBounded := by
  intro k s t i a hinv hrunning hd hi hp hn h
  have hcaller : s.callerIe = s.ie := State.callerIe_of_unmasked (by rw [hp]; rfl)
  have hg : GuardedRun i s.ie s := ⟨hinv, hrunning, hd, .inr (by rw [hp]; rfl), hcaller⟩
  refine ⟨fun hle => ?_, hg.pass_ends hi hn hp h⟩
  have hidle : ∀ m < 4, Phase.idle ∉ phasesAfter m s.ph := by rw [hp]; decide
  obtain ⟨hend, -⟩ := hg.after_run hi hn h rfl fun m hm => hidle m (by omega)
  exact hend.ie

end Sys2Proof.Machine

/-! SUPPORT. EE_IS_READY, and the two phases of an EEPROM access that are its own: G_VALIDATE and G_ACCESS (42_eeprom.md
R140 to R146). -/

namespace Sys2Proof.Machine

/-- Settles O26: EE_IS_READY is one `respond` with EE_READY. -/
theorem eeIsReadyAnswersReady : Obligations.EeIsReadyAnswersReady := by
  refine ⟨rfl, fun s => ?_⟩
  simp only [← s.eeReady_iff]
  rfl

/-- G_VALIDATE, run by HOST with the issue or by SEQ (42_eeprom.md R141). -/
theorem guardedAccess_of_validate {s : State} (hp : s.ph = .idle ∨ s.ph = .gValidate) (a : Addr) (v : Byte)
    (access : State → Result) (result : State → Byte) :
    guardedAccess a v access result s = .next (gValidate a v s) := by
  rcases hp with hp | hp <;> simp only [guardedAccess, hp]

theorem gValidate_of_valid {s : State} {a : Addr} (h : a.toNat < s.cfg.size) (v : Byte) :
    gValidate a v s = s.toPhase .gPoll := if_pos (decide_eq_true h)

theorem gValidate_of_invalid {s : State} {a : Addr} (h : s.cfg.size ≤ a.toNat) (v : Byte) :
    gValidate a v s = (s.orErr s.cfg.codeEeBadAddr).respond v :=
  if_neg fun hv => Nat.not_lt.2 h (of_decide_eq_true hv)

/-- Settles O27: the two clauses are the branches of G_VALIDATE, which the three commands share but for the sentinel. -/
theorem validateChecksAddress : Obligations.ValidateChecksAddress := by
  intro a d s hp
  have hread : exec (.eeRead a) s = .next (gValidate a s.cfg.eeSentinel s) :=
    guardedAccess_of_validate hp a s.cfg.eeSentinel (readAccess a) State.tmp
  have hwrite : exec (.eeWrite a d) s = .next (gValidate a 0x00 s) :=
    guardedAccess_of_validate hp a 0x00 (writeAccess a d) fun _ => 0x00
  have hupdate : exec (.eeUpdate a d) s = .next (gValidate a 0x00 s) :=
    guardedAccess_of_validate hp a 0x00 (updateAccess a d) fun _ => 0x00
  rw [hread, hwrite, hupdate]
  refine ⟨fun hbad => ?_, fun hgood => ?_⟩
  · simp only [gValidate_of_invalid hbad]
    exact ⟨rfl, rfl, rfl⟩
  · simp only [gValidate_of_valid hgood]
    exact ⟨rfl, rfl, rfl⟩

/-- G_ACCESS is what the command rule says (41_synchronizer.md R126). -/
theorem guardedAccess_of_gAccess {s : State} (hp : s.ph = .gAccess) (a : Addr) (v : Byte) (access : State → Result)
    (result : State → Byte) : guardedAccess a v access result s = access s := by
  simp only [guardedAccess, hp]

/-- The controller's read at an address of the store (42_eeprom.md R142). -/
theorem readEe_of_valid {s : State} {a : Addr} (h : a.toNat < s.cfg.size) :
    s.readEe a = .next { s.programEe a (s.eeByte a.toNat) with tmp := s.eeByte a.toNat } := if_pos h

/-- The commit that ends G_ACCESS: right after `latch` it starts a write on a ready EEPROM (42_eeprom.md R144, R152). -/
theorem latch_commit_toPhase {s : State} (h : s.eeReady = true) (p : Phase) :
    andThen s.latch.commit (fun t => .next (t.toPhase p)) =
      .next { s with eePendAddr := s.eear, eePendData := s.eedr, eeBusy := true, eeWrCount := s.eeWrCount + 1,
                     eeLatch := false, ph := p } := by
  obtain ⟨hbusy, hspm⟩ := s.eeReady_iff.1 h
  simp [State.commit, State.latch, State.toPhase, hbusy, hspm]

/-- Settles O28: at an address of the store the controller's read answers, and G_ACCESS moves on to G_EXIT. -/
theorem eeReadAccessReadsByte : Obligations.EeReadAccessReadsByte := by
  intro a s hp ha
  calc exec (.eeRead a) s = readAccess a s :=
        guardedAccess_of_gAccess hp a s.cfg.eeSentinel (readAccess a) State.tmp
    _ = _ := by rw [readAccess, readEe_of_valid ha]; rfl

/-- Settles O29: the latch that G_ACCESS has just armed lets `commit` start the write. -/
theorem eeWriteAccessCommits : Obligations.EeWriteAccessCommits := by
  intro a d s hp hbusy hspm
  calc exec (.eeWrite a d) s = writeAccess a d s :=
        guardedAccess_of_gAccess hp a 0x00 (writeAccess a d) fun _ => 0x00
    _ = _ := latch_commit_toPhase (s := s.programEe a d) (s.eeReady_iff.2 ⟨hbusy, hspm⟩) .gExit

/-- Settles O30: after the read, `commit` is called with the latch armed if the byte differs, and is not called if it
equals. -/
theorem eeUpdateAccessCommitsIfDifferent : Obligations.EeUpdateAccessCommitsIfDifferent := by
  intro a d s hp ha
  have haccess : exec (.eeUpdate a d) s = updateAccess a d s :=
    guardedAccess_of_gAccess hp a 0x00 (updateAccess a d) fun _ => 0x00
  rw [haccess, updateAccess, readEe_of_valid ha, andThen_of_next]
  refine ⟨fun hequal => ?equal, fun hdiffers hbusy hspm => ?differs⟩
  case equal =>
    rw [if_neg (not_not_intro hequal), hequal]
    rfl
  case differs =>
    rw [if_pos hdiffers]
    refine latch_commit_toPhase ?_ .gExit
    exact s.eeReady_iff.2 ⟨hbusy, hspm⟩

end Sys2Proof.Machine

/-! SUPPORT. A whole guarded access with only the main line stepping: six micro-steps from its word on the port to its
response (41_synchronizer.md R126, 42_eeprom.md R147, R148). -/

namespace Sys2Proof.Machine

/-- Only the main line steps, and the command that it has in flight is `i`. -/
structure SoleFlight (i : Instr) (s : State) : Prop where
  mainOnly : s.mainOnly
  running : s.seqStopped = false
  cmd : decode s.cmd = .ok i

section SoleFlight

variable {i : Instr} {a : Addr} {s t : State}

/-- A micro-step leaves the order of turns and the command in flight as they are. -/
theorem SoleFlight.of_exec (hf : SoleFlight i s) (h : exec i s = .next t) : SoleFlight i t := by
  obtain ⟨-, -, hcmd, -, -, -, -, -, -, hstop, -, hsched, hagain, -⟩ := exec_frame h
  obtain ⟨hmain, hagainMain⟩ := hf.mainOnly
  exact ⟨⟨hsched.trans hmain, hagain.trans hagainMain⟩, hstop.trans hf.running, hcmd ▸ hf.cmd⟩

/-- With only the main line stepping, a run past G_VALIDATE goes on with the micro-step of the command in flight. -/
theorem SoleFlight.runSteps_succ (hf : SoleFlight i s) (hi : addressOf i = some a) (hv : s.ph.validated = true)
    (h : exec i s = .next t) (k : Nat) : runSteps (k + 1) s = runSteps k t := by
  have hp : s.ph ≠ .idle := by
    intro hp
    rw [hp] at hv
    cases hv
  have hstep : step s = .next t := by
    rw [step_of_seqNow ⟨State.turn_main hf.mainOnly, hp, hf.running⟩ hf.cmd (hasPhase_of_validated hi hv),
      State.taken_main hf.mainOnly]
    exact runCommand_of_next h
  rw [Machine.runSteps_succ, hstep, andThen_of_next]

/-- The state in which HOST has presented the word of `i`, and the access has found its address valid. -/
def State.issued (s : State) (i : Instr) (rest : List Word) : State :=
  ((s.withPort rest).accept (encode i)).toPhase .gPoll

/-- The state in which G_ACCESS of `i` executes, if the EEPROM was ready in G_POLL and in G_RECHECK. -/
def State.atAccess (s : State) (i : Instr) (rest : List Word) : State :=
  (s.issued i rest).enterSection.toPhase .gAccess

/-- G_ACCESS and G_EXIT, which are what the command rule says (41_synchronizer.md R126, R130). -/
theorem SoleFlight.runSteps_of_gAccess {u : State} (hf : SoleFlight i s) (hi : addressOf i = some a)
    (hp : s.ph = .gAccess) (haccess : exec i s = .next u) (hu : u.ph = .gExit) (hexit : exec i u = .next t) :
    runSteps 2 s = .next t :=
  calc runSteps 2 s = runSteps 1 u := hf.runSteps_succ hi (by rw [hp]; rfl) haccess 1
    _ = runSteps 0 t := (hf.of_exec haccess).runSteps_succ hi (by rw [hu]; rfl) hexit 0
    _ = .next t := runSteps_zero t

end SoleFlight

section Call

variable {i : Instr} {a : Addr} {s t : State} {rest : List Word} (hm : s.mainOnly) (hrun : s.seqStopped = false)
  (hp : s.ph = .idle) (hport : s.port = encode i :: rest) (hi : addressOf i = some a) (ha : a.toNat < s.cfg.size)

include hm hp hport hi ha

/-- HOST's step with the word of a command with a valid address on the port (30_encoding.md R79, 42_eeprom.md R141). -/
theorem step_issues : step s = .next (s.issued i rest) :=
  calc step s = mainStep s.taken := step_of_turn (State.turn_main hm)
    _ = mainStep s := by rw [State.taken_main hm]
    _ = hostStep s := mainStep_of_idle hp
    _ = .next (s.issued i rest) := hostStep_of_valid hp hport (decodeOfEncode i) hi ha

include hrun

/-- The first four micro-steps on a ready EEPROM: G_VALIDATE, G_POLL, G_ENTER and G_RECHECK (41_synchronizer.md R127 to
R131). -/
theorem runSteps_atAccess (hready : s.eeReady = true) :
    runSteps 4 s = .next (s.atAccess i rest) ∧ SoleFlight i (s.atAccess i rest) := by
  have hpoll : exec i (s.issued i rest) = .next ((s.issued i rest).toPhase .gEnter) :=
    (exec_of_gPoll hi rfl).trans (congrArg _ (if_pos hready))
  have henter : exec i ((s.issued i rest).toPhase .gEnter) = .next ((s.issued i rest).enterSection.toPhase .gRecheck) :=
    exec_of_gEnter hi rfl
  have hrecheck : exec i ((s.issued i rest).enterSection.toPhase .gRecheck) = .next (s.atAccess i rest) :=
    (exec_of_gRecheck hi rfl).trans (congrArg _ (gRecheck_of_ready hready))
  have fpoll : SoleFlight i (s.issued i rest) := ⟨hm, hrun, decodeOfEncode i⟩
  have fenter := fpoll.of_exec hpoll
  have frecheck := fenter.of_exec henter
  refine ⟨?_, frecheck.of_exec hrecheck⟩
  calc runSteps 4 s = runSteps 3 (s.issued i rest) := by
        rw [runSteps_succ, step_issues hm hp hport hi ha, andThen_of_next]
    _ = runSteps 2 _ := fpoll.runSteps_succ hi rfl hpoll 2
    _ = runSteps 1 _ := fenter.runSteps_succ hi rfl henter 1
    _ = runSteps 0 (s.atAccess i rest) := frecheck.runSteps_succ hi rfl hrecheck 0
    _ = .next (s.atAccess i rest) := runSteps_zero _

/-- A whole guarded access on a ready EEPROM, from its word on the port: G_ACCESS leads to `u`, and G_EXIT to `t`. -/
theorem runSteps_of_ready {u : State} (hready : s.eeReady = true) (haccess : exec i (s.atAccess i rest) = .next u)
    (hu : u.ph = .gExit) (hexit : exec i u = .next t) : runSteps 6 s = .next t := by
  obtain ⟨hfour, hflight⟩ := runSteps_atAccess hm hrun hp hport hi ha hready
  rw [runSteps_add hfour 2, hflight.runSteps_of_gAccess hi rfl haccess hu hexit]

end Call

/-- Settles O31: G_ACCESS reads the byte (O28), and G_EXIT answers TMP (O20). -/
theorem eeReadRunsToResponse : Obligations.EeReadRunsToResponse := by
  intro a s rest hm hrun hp hport ha hbusy hspm
  have haccess := eeReadAccessReadsByte a (s.atAccess (.eeRead a) rest) rfl ha
  rw [runSteps_of_ready hm hrun hp hport rfl ha (s.eeReady_iff.2 ⟨hbusy, hspm⟩) haccess rfl
    (exitRestoresAndResponds.1 a _ rfl), ← hp]
  rfl

/-- Settles O32: G_ACCESS commits the write (O29), and G_EXIT answers 0x00 (O20). -/
theorem eeWriteRunsToResponse : Obligations.EeWriteRunsToResponse := by
  intro a d s rest hm hrun hp hport ha hbusy hspm
  have haccess := eeWriteAccessCommits a d (s.atAccess (.eeWrite a d) rest) rfl hbusy hspm
  rw [runSteps_of_ready hm hrun hp hport rfl ha (s.eeReady_iff.2 ⟨hbusy, hspm⟩) haccess rfl
    (exitRestoresAndResponds.2 a d _ rfl).1, ← hp]
  rfl

/-- Settles O33: G_ACCESS commits a write or none, as the stored byte differs or equals (O30), and G_EXIT answers 0x00
(O20). -/
theorem eeUpdateRunsToResponse : Obligations.EeUpdateRunsToResponse := by
  intro a d s rest hm hrun hp hport ha hbusy hspm
  have hready := s.eeReady_iff.2 ⟨hbusy, hspm⟩
  obtain ⟨hequal, hdiffers⟩ := eeUpdateAccessCommitsIfDifferent a d (s.atAccess (.eeUpdate a d) rest) rfl ha
  refine ⟨fun h => ?equal, fun h => ?differs⟩
  case equal =>
    rw [runSteps_of_ready hm hrun hp hport rfl ha hready (hequal h) rfl
      (exitRestoresAndResponds.2 a d _ rfl).2, ← hp]
    rfl
  case differs =>
    rw [runSteps_of_ready hm hrun hp hport rfl ha hready (hdiffers h hbusy hspm) rfl
      (exitRestoresAndResponds.2 a d _ rfl).2, ← hp]
    rfl

end Sys2Proof.Machine

/-! SUPPORT. The completion of a write by the EEPROM controller (42_eeprom.md R150). -/

namespace Sys2Proof.Machine

/-- The controller's step where a write is in flight. -/
theorem eepStep_of_busy {s : State} (h : s.eeBusy = true) (stray : Option (Nat × Byte)) :
    eepStep stray s = { s with eeMem := completedMemory stray s, eeBusy := false } := if_pos h

/-- The controller's step where none is in flight (log entry 5). -/
theorem eepStep_of_idle {s : State} (h : s.eeBusy = false) (stray : Option (Nat × Byte)) : eepStep stray s = s :=
  if_neg (by rw [h]; exact Bool.false_ne_true)

theorem completedMemory_taken (stray : Option (Nat × Byte)) (s : State) :
    completedMemory stray s.taken = completedMemory stray s := by
  rw [State.taken_eq]
  rfl

/-- The bytes after a completion at an address of the store. -/
theorem eeByte_completed_of_valid {s : State} (h : s.eePendAddr.toNat < s.cfg.size) (stray : Option (Nat × Byte))
    (n : Nat) : { s with eeMem := completedMemory stray s }.eeByte n =
      if n = s.eePendAddr.toNat then s.eePendData else s.eeByte n :=
  State.eeByte_set s _ _ _ (if_pos h) n

/-- At an address outside the store the byte drawn, if there is one, decides (log entry 11). -/
theorem completedMemory_of_invalid {s : State} (h : s.cfg.size ≤ s.eePendAddr.toNat) (stray : Option (Nat × Byte)) :
    completedMemory stray s = strayWrite stray s := if_neg (Nat.not_lt.2 h)

/-- The bytes after the byte `x` was drawn: it changes if it is one of the store (log entry 11). -/
theorem eeByte_strayWrite (s : State) (x : Nat) (v : Byte) (n : Nat) :
    { s with eeMem := strayWrite (some (x, v)) s }.eeByte n = if n = x ∧ x < s.cfg.size then v else s.eeByte n := by
  by_cases hx : x < s.cfg.size
  · simp only [hx, and_true]
    exact State.eeByte_set s _ x v (if_pos hx) n
  · have hmem : strayWrite (some (x, v)) s = s.eeMem := if_neg hx
    rw [if_neg fun h => hx h.2, hmem]

/-- Settles O34: the memory is that of the completion, at an address of the store or outside it. -/
theorem completionStoresPendingByte : Obligations.CompletionStoresPendingByte := by
  intro s stray hturn
  have hstep : step s = .next (eepStep stray s.taken) := step_of_turn hturn
  refine ⟨fun hbusy => ⟨completedMemory stray s, ?stores, fun hin => ?inside, fun hout => ?outside⟩,
    fun hidle => ?waits⟩
  case stores => rw [hstep, eepStep_of_busy (by rwa [State.taken_eeBusy]), completedMemory_taken]
  case inside => exact eeByte_completed_of_valid hin stray
  case outside =>
    rw [completedMemory_of_invalid hout]
    refine ⟨?none, ?some⟩
    case none => rintro rfl; rfl
    case some => rintro x v rfl; exact eeByte_strayWrite s x v
  case waits => rw [hstep, eepStep_of_idle (by rwa [State.taken_eeBusy])]

end Sys2Proof.Machine

/-! SUPPORT. What one step adds to FAULTS (10_state.md R38, 60_exceptions.md R210), and that it is never
EE_COMMIT_WHILE_BUSY (42_eeprom.md R152). -/

namespace Sys2Proof.Machine

section Faults

variable {i : Instr} {s t : State}

/-- What a micro-step wrote before its fault is not FAULTS. -/
theorem atRaise_faults (i : Instr) (s : State) : (atRaise i s).faults = s.faults := by
  rcases atRaise_cases i s with e | ⟨a, d, v, -, e⟩ <;> rw [e]
  rfl

theorem runCommand_faults (h : runCommand i s = .next t) :
    t.faults = s.faults ∨ ∃ r, exec i s = .fault r ∧ t.faults = addFault r s.faults := by
  rcases runCommand_next h with hx | ⟨r, hx, rfl⟩
  · obtain ⟨-, -, -, -, -, -, -, -, hfaults, -⟩ := exec_frame hx
    exact .inl hfaults
  · exact .inr ⟨r, hx, congrArg (addFault r) (atRaise_faults i s)⟩

/-- The main line adds to FAULTS only what SEQ's micro-step raises: HOST's raises no fault. -/
theorem mainStep_faults (h : mainStep s = .next t) :
    t.faults = s.faults ∨
    ∃ i r, s.ph ≠ .idle ∧ s.seqStopped = false ∧ decode s.cmd = .ok i ∧ exec i s = .fault r ∧
      t.faults = addFault r s.faults := by
  rcases mainStep_next h with ⟨hp, h⟩ | ⟨hp, h⟩
  · rcases hostStep_next h with ⟨-, rfl⟩ | ⟨w, rest, -, ⟨e, -, rfl⟩ | ⟨i, -, h⟩⟩
    · exact .inl rfl
    · exact .inl rfl
    · rw [runCommand_of_idle (show ((s.withPort rest).accept w).ph = .idle from hp)] at h
      obtain ⟨-, -, -, -, -, -, -, -, hfaults, -⟩ := exec_frame h
      exact .inl hfaults
  · rcases seqStep_next h with ⟨-, rfl⟩ | ⟨hs, i, hd, -, h⟩
    · exact .inl rfl
    · exact (runCommand_faults h).imp_right fun ⟨r, hx, ht⟩ => ⟨i, r, hp, hs, hd, hx, ht⟩

/-- FAULTS is no reset target (10_state.md R38). -/
theorem agentStep_faults_of_reset {e : Event} (h : agentStep e s = .next t) (hr : e.isReset = true) :
    t.faults = s.faults := by
  cases e with
  | coldReset d => cases h; rfl
  | warmReset d => cases h; rfl
  | _ => cases hr

/-- A step adds to FAULTS only what SEQ's micro-step raises; no agent and no reset takes a reason out. -/
theorem step_faults (h : step s = .next t) :
    t.faults = s.faults ∨
    ∃ i r, s.seqNow ∧ decode s.cmd = .ok i ∧ exec i s.taken = .fault r ∧ t.faults = addFault r s.faults := by
  rw [step_eq] at h
  by_cases hm : s.turn = .main
  · rw [hm] at h
    simpa [State.seqNow, hm, and_assoc] using mainStep_faults h
  · refine .inl (Eq.trans ?_ (State.taken_faults s))
    cases hr : s.turn.isReset with
    | false => exact (agentStep_sequencerKept h hm hr).faults
    | true => exact agentStep_faults_of_reset h hr

/-- Under the invariant the block's own `commit` finds EE_READY (20_memory.md R63, 42_eeprom.md R152). -/
theorem exec_not_commit_fault (hinv : Inv s) : exec i s ≠ .fault .eeCommitWhileBusy := by
  intro h
  rcases exec_fault h with ⟨-, hp, hr, -⟩ | ⟨hr, -⟩ | ⟨hr, -⟩
  · rw [hinv.accessReady hp] at hr
    cases hr
  · cases hr
  · cases hr

theorem step_commit_fault (hinv : Inv s) (h : step s = .next t) :
    .eeCommitWhileBusy ∈ t.faults ↔ .eeCommitWhileBusy ∈ s.faults := by
  rcases step_faults h with ht | ⟨i, r, -, -, hx, ht⟩
  · rw [ht]
  · have hne : .eeCommitWhileBusy ≠ r := fun e => exec_not_commit_fault (taken_keeps_inv hinv) (e ▸ hx)
    rw [ht, mem_addFault, or_iff_right hne]

end Faults

/-- Settles O40, by the step lemma along the run, which keeps the invariant. -/
theorem commitNeverFindsBusy : Obligations.CommitNeverFindsBusy := by
  intro k s t hinv h
  have hrun : Inv t ∧ (.eeCommitWhileBusy ∈ t.faults ↔ .eeCommitWhileBusy ∈ s.faults) :=
    runSteps_induction (p := fun u => Inv u ∧ (.eeCommitWhileBusy ∈ u.faults ↔ .eeCommitWhileBusy ∈ s.faults))
      (fun _ _ ⟨hu, hfaults⟩ hstep => ⟨step_keeps_inv hu hstep, (step_commit_fault hu hstep).trans hfaults⟩)
      ⟨hinv, Iff.rfl⟩ h
  exact hrun.2

end Sys2Proof.Machine

/-! SUPPORT. The commands of the USART, phase by phase (43_usart.md R171 to R187). -/

namespace Sys2Proof.Machine

/-- Settles O52: each toggle is one write of its bit and one `respond`. -/
theorem togglesWriteTheirBit : Obligations.TogglesWriteTheirBit :=
  ⟨⟨rfl, rfl, rfl, rfl⟩, fun _ => ⟨rfl, rfl, rfl, rfl⟩⟩

theorem boolByte_rxc (s : State) : boolByte s.rxc = if s.rxQ = [] then 0x00#8 else 0x01#8 := by
  cases hq : s.rxQ <;> simp [boolByte, State.rxc, hq]

/-- Settles O47: each query is one `respond` with its bit, and RXC says whether the queue is empty. -/
theorem statusQueriesAnswerBits : Obligations.StatusQueriesAnswerBits := by
  refine ⟨⟨rfl, rfl, rfl⟩, fun s => ⟨rfl, rfl, ?_⟩⟩
  rw [← boolByte_rxc]
  rfl

section Init

variable {s : State}

theorem exec_of_aEnter (hp : s.ph = .idle ∨ s.ph = .aEnter) :
    exec .usInit s = .next (s.enterSection.toPhase .aAccess) := by
  rcases hp with hp | hp <;> simp only [exec, execUsInit, atomicSection, hp]

theorem exec_of_aAccess (hp : s.ph = .aAccess) : exec .usInit s = .next ((initAccess s).toPhase .aExit) := by
  simp only [exec, execUsInit, atomicSection, hp]

theorem exec_of_aExit (hp : s.ph = .aExit) : exec .usInit s = .next (s.exitSection.respond 0x00) := by
  simp only [exec, execUsInit, atomicSection, hp]

end Init

/-- Settles O45: the phases of US_INIT are those of an atomic section around `initAccess`. -/
theorem initPhasesConfigure : Obligations.InitPhasesConfigure :=
  ⟨rfl, fun _ => ⟨exec_of_aEnter, exec_of_aAccess, exec_of_aExit⟩⟩

section TxByte

variable {d : Byte} {s : State}

theorem exec_of_tStart (hp : s.ph = .idle ∨ s.ph = .tStart) : exec (.usTxByte d) s = .next (tStart d s) := by
  rcases hp with hp | hp <;> simp only [exec, execUsTxByte, hp]

theorem exec_of_tPoll (hp : s.ph = .tPoll) : exec (.usTxByte d) s = .next (tPoll s) := by
  simp only [exec, execUsTxByte, hp]

theorem exec_of_tWrite (hp : s.ph = .tWrite) : exec (.usTxByte d) s = tWrite s := by
  simp only [exec, execUsTxByte, hp]

theorem tPoll_eq (s : State) : tPoll s = s.toPhase (if s.udre then .tWrite else .tPoll) := by
  unfold tPoll
  split <;> rfl

/-- T_WRITE on a full data register (43_usart.md R178). -/
theorem tWrite_of_full (hu : s.udre = false) : tWrite s = .fault .txCollision :=
  if_neg (by rw [hu]; exact Bool.false_ne_true)

/-- T_WRITE of the first of two bytes (43_usart.md R178). -/
theorem tWrite_of_some {b : Byte} (hu : s.udre = true) (hn : s.nxt = some b) :
    tWrite s =
      .next { s with txdr := s.cur, udre := false, txc := false, cur := b, nxt := none, ph := .tPoll } := by
  simp only [tWrite, hu, hn, if_true]

/-- T_WRITE of the last byte (43_usart.md R178). -/
theorem tWrite_of_none (hu : s.udre = true) (hn : s.nxt = none) :
    tWrite s = .next ({ s with txdr := s.cur, udre := false, txc := false }.respond 0x00) := by
  simp only [tWrite, hu, hn, if_true]

end TxByte

/-- Settles O48: the clauses are the branches of the three phases. -/
theorem txBytePhases : Obligations.TxBytePhases := by
  intro d s
  refine ⟨rfl, fun hp => ?start, fun hp => ?poll,
    fun hp => ⟨fun hu => ?full, fun b hu hn => ?first, fun hu hn => ?last⟩⟩
  case start =>
    rw [exec_of_tStart hp]
    rcases tStart_cases d s with ⟨hlf, hcrlf, e⟩ | ⟨hplain, e⟩
    · rw [e, if_pos ⟨hcrlf, hlf⟩]
    · rw [e, if_neg fun h => hplain h.symm]
  case poll =>
    rw [exec_of_tPoll hp, tPoll_eq]
    rfl
  case full => rw [exec_of_tWrite hp, tWrite_of_full hu]
  case first => rw [exec_of_tWrite hp, tWrite_of_some hu hn]
  case last =>
    rw [exec_of_tWrite hp, tWrite_of_none hu hn]
    rfl

section RxByte

variable {s : State}

theorem exec_of_rPoll (hp : s.ph = .idle ∨ s.ph = .rPoll) : exec .usRxByte s = .next (rPoll s) := by
  rcases hp with hp | hp <;> simp only [exec, execUsRxByte, hp]

theorem exec_of_rInspect (hp : s.ph = .rInspect) : exec .usRxByte s = rInspect s := by
  simp only [exec, execUsRxByte, hp]

theorem exec_of_rRead (hp : s.ph = .rRead) : exec .usRxByte s = rRead s := by
  simp only [exec, execUsRxByte, hp]

theorem rPoll_eq (s : State) : rPoll s = s.toPhase (if s.rxQ = [] then .rPoll else .rInspect) := by
  cases hq : s.rxQ <;> simp [rPoll, State.rxc, hq]

/-- R_POLL finds a head entry (43_usart.md R180). -/
theorem rPoll_of_cons {h : RxEntry} {q : List RxEntry} (hq : s.rxQ = h :: q) : rPoll s = s.toPhase .rInspect := by
  rw [rPoll_eq, hq, if_neg (List.cons_ne_nil h q)]

/-- R_INSPECT of the head entry (43_usart.md R181). -/
theorem rInspect_of_cons {h : RxEntry} {q : List RxEntry} (hq : s.rxQ = h :: q) :
    rInspect s = .next ((s.orErr (rxCodes s.cfg h)).toPhase .rRead) := by
  simp only [rInspect, hq]

/-- R_READ of the head entry (43_usart.md R182). -/
theorem rRead_of_cons {h : RxEntry} {q : List RxEntry} (hq : s.rxQ = h :: q) :
    rRead s =
      .next { s with rxQ := q, rspValid := true, rspIll := false, rspData := h.data, ph := .idle } := by
  simp only [rRead, hq]
  rfl

end RxByte

/-- Settles O50: R_INSPECT and R_READ both look at the head of the queue, and both fault where there is none. -/
theorem rxBytePhases : Obligations.RxBytePhases := by
  refine ⟨rfl, fun s => ⟨fun hp => ?poll, fun hp hq => ?empty, fun h q hp hq => ?inspect, fun h q hp hq => ?read⟩⟩
  case poll =>
    rw [exec_of_rPoll hp, rPoll_eq]
    rfl
  case empty =>
    rcases hp with hp | hp
    · simp only [exec_of_rInspect hp, rInspect, hq, raiseFault]
    · simp only [exec_of_rRead hp, rRead, hq, raiseFault]
  case inspect =>
    rw [exec_of_rInspect hp, rInspect_of_cons hq]
    rfl
  case read => rw [exec_of_rRead hp, rRead_of_cons hq]

end Sys2Proof.Machine

/-! SUPPORT. The USART's own steps: the transmitter and the receiver (43_usart.md R190 to R192). -/

namespace Sys2Proof.Machine

/-- Settles O53: the branches are those of the two steps, seen from the state before the turn was taken. -/
theorem transmitterSteps : Obligations.TransmitterSteps := by
  refine fun s => ⟨fun hturn => ?handOver, fun hturn => ?complete⟩
  case handOver =>
    have hstep : step s = .next (txHandOver s.taken) := step_of_turn hturn
    rw [hstep, ← State.taken_udre s, ← State.taken_txen s, ← State.taken_shiftBusy s, ← State.taken_txdr s]
    rcases txHandOver_cases s.taken with ⟨hu, he, hb, e⟩ | ⟨hn, e⟩
    · rw [e, if_pos ⟨hu, he, hb⟩]
    · rw [e, if_neg hn]
  case complete =>
    have hstep : step s = .next (txComplete s.taken) := step_of_turn hturn
    have htxc : (s.taken.txc || s.taken.udre) = if s.taken.udre then true else s.taken.txc := by
      cases s.taken.udre <;> simp
    rw [hstep, ← State.taken_shiftBusy s, ← State.taken_wireTx s, ← State.taken_shiftByte s, ← State.taken_udre s,
      ← State.taken_txc s, ← htxc]
    rcases txComplete_cases s.taken with ⟨hb, e⟩ | ⟨hb, e⟩
    · rw [e, if_pos hb]
    · rw [e, if_neg (by rw [hb]; exact Bool.false_ne_true)]

section Arrival

variable {s : State} (x : Byte) (p o f : Bool)

theorem rxArrive_of_room (hr : s.rxen = true) (hq : s.rxQ.length < s.cfg.rxqDepth) :
    rxArrive x p o f s = { s with rxQ := s.rxQ ++ [⟨x, p, o, f⟩] } := (if_pos hr).trans (if_pos hq)

theorem rxArrive_of_full (hr : s.rxen = true) (hq : s.cfg.rxqDepth ≤ s.rxQ.length) :
    rxArrive x p o f s = { s with rxQ := markOverrun s.rxQ } := (if_pos hr).trans (if_neg (Nat.not_lt.2 hq))

theorem rxArrive_of_disabled (hr : s.rxen = false) : rxArrive x p o f s = s :=
  if_neg (by rw [hr]; exact Bool.false_ne_true)

end Arrival

/-- Settles O54: the clauses are the branches of the arrival, and the overrun mark goes to the last entry. -/
theorem receiverArrival : Obligations.ReceiverArrival := by
  intro s x p o f hturn
  have hstep : step s = .next (rxArrive x p o f s.taken) := step_of_turn hturn
  rw [hstep]
  refine ⟨fun hr hroom => ?room, fun q e hr hfull hq => ?full, fun hr => ?disabled⟩
  case room => rw [rxArrive_of_room x p o f (by simpa using hr) (by simpa using hroom), State.taken_rxQ]
  case full =>
    rw [rxArrive_of_full x p o f (by simpa using hr) (by simpa using hfull), State.taken_rxQ, hq, markOverrun_concat]
  case disabled => rw [rxArrive_of_disabled x p o f (by simpa using hr)]

end Sys2Proof.Machine

/-! SUPPORT. A run goes on with the micro-step of the main line: HOST's with the issue of a word, or SEQ's (30_encoding.md
R79, 10_state.md R40). -/

namespace Sys2Proof.Machine

section MainLine

variable {i : Instr} {s t : State} {rest : List Word}

theorem runSteps_of_step {k : Nat} (h : step s = .next t) : runSteps (k + 1) s = runSteps k t := by
  rw [runSteps_succ, h, andThen_of_next]

theorem step_issue (hn : s.hostNow) (hport : s.port = encode i :: rest)
    (h : exec i ((s.taken.withPort rest).accept (encode i)) = .next t) : step s = .next t :=
  ((hostPresentsWord s _ rest hn hport).2 i (decodeOfEncode i)).trans h

theorem ne_idle_of_hasPhase {p : Phase} (h : hasPhase i p = true) : p ≠ .idle := by
  rintro rfl
  cases i <;> cases h

theorem step_flight (hturn : s.turn = .main) (hrun : s.seqStopped = false) (hd : decode s.cmd = .ok i)
    (hp : hasPhase i s.ph = true) (h : exec i s.taken = .next t) : step s = .next t :=
  (step_of_seqNow ⟨hturn, ne_idle_of_hasPhase hp, hrun⟩ hd hp).trans (runCommand_of_next h)

/-- With only the main line stepping, SEQ's micro-step is that of the command in flight. -/
theorem SoleFlight.step_eq (hf : SoleFlight i s) (hp : hasPhase i s.ph = true) (h : exec i s = .next t) :
    step s = .next t :=
  step_flight (State.turn_main hf.mainOnly) hf.running hf.cmd hp (by rwa [State.taken_main hf.mainOnly])

/-- A command of three micro-steps, with only the main line stepping, from its word on the port. -/
theorem runSteps_of_three {u v : State} (hm : s.mainOnly) (hrun : s.seqStopped = false) (hp : s.ph = .idle)
    (hport : s.port = encode i :: rest) (hfirst : exec i ((s.withPort rest).accept (encode i)) = .next u)
    (hu : hasPhase i u.ph = true) (hsecond : exec i u = .next v) (hv : hasPhase i v.ph = true)
    (hthird : exec i v = .next t) : runSteps 3 s = .next t := by
  have hissue : step s = .next u :=
    step_issue ⟨State.turn_main hm, hp⟩ hport (by rwa [State.taken_main hm])
  have hissued : SoleFlight i ((s.withPort rest).accept (encode i)) := ⟨hm, hrun, decodeOfEncode i⟩
  have hflight : SoleFlight i u := hissued.of_exec hfirst
  calc runSteps 3 s = runSteps 2 u := runSteps_of_step hissue
    _ = runSteps 1 v := runSteps_of_step (hflight.step_eq hu hsecond)
    _ = runSteps 0 t := runSteps_of_step ((hflight.of_exec hsecond).step_eq hv hthird)
    _ = .next t := runSteps_zero t

end MainLine

end Sys2Proof.Machine

/-! SUPPORT. US_INIT and US_RX_BYTE as calls, with only the main line stepping (43_usart.md R171, R172, R180 to R182). -/

namespace Sys2Proof.Machine

/-- The state in which US_INIT has answered its word, taken off a port of which `rest` is left: the three phases of R171 in
one. -/
def State.initialized (s : State) (rest : List Word) : State :=
  (initAccess ((s.withPort rest).accept (encode .usInit)).enterSection).exitSection.respond 0x00

/-- US_INIT from its word on the port to its response (43_usart.md R171). -/
theorem runSteps_usInit {s : State} {rest : List Word} (hm : s.mainOnly) (hrun : s.seqStopped = false)
    (hp : s.ph = .idle) (hport : s.port = encode .usInit :: rest) : runSteps 3 s = .next (s.initialized rest) :=
  runSteps_of_three hm hrun hp hport (exec_of_aEnter (.inl hp)) rfl (exec_of_aAccess rfl) rfl (exec_of_aExit rfl)

theorem map_clearErrors_twice (q : List RxEntry) :
    (q.map RxEntry.clearErrors).map RxEntry.clearErrors = q.map RxEntry.clearErrors := by
  rw [List.map_map]
  rfl

/-- A second US_INIT finds the configuration and the cleared error bits that the first one left. -/
theorem initialized_twice (s : State) (w : Word) (rest : List Word) :
    (s.initialized (w :: rest)).initialized rest = { s.initialized (w :: rest) with port := rest } :=
  congrArg (fun q => { s.initialized rest with rxQ := q }) (map_clearErrors_twice s.rxQ)

/-- Settles O46: the second call starts where the first ended, with its own word next on the port. -/
theorem initIsIdempotent : Obligations.InitIsIdempotent := by
  intro s rest hm hrun hp hport
  have honce : runSteps 3 s = .next (s.initialized (encode .usInit :: rest)) := runSteps_usInit hm hrun hp hport
  refine ⟨_, _, honce, ?twice, rfl, rfl, initialized_twice s (encode .usInit) rest⟩
  rw [runSteps_add honce 3]
  exact runSteps_usInit hm hrun rfl rfl

/-- Settles O51: R_POLL finds the entry, R_INSPECT records its codes, R_READ pops it and answers its byte. -/
theorem rxByteDeliversDespiteErrors : Obligations.RxByteDeliversDespiteErrors := by
  intro s h q rest hm hrun hp hport hq
  have hpoll : exec .usRxByte ((s.withPort rest).accept (encode .usRxByte)) =
      .next (((s.withPort rest).accept (encode .usRxByte)).toPhase .rInspect) := by
    have hidle : ((s.withPort rest).accept (encode .usRxByte)).ph = .idle := hp
    have hqueue : ((s.withPort rest).accept (encode .usRxByte)).rxQ = h :: q := hq
    rw [exec_of_rPoll (.inl hidle), rPoll_of_cons hqueue]
  have hinspect : exec .usRxByte (((s.withPort rest).accept (encode .usRxByte)).toPhase .rInspect) = .next _ :=
    (exec_of_rInspect rfl).trans (rInspect_of_cons hq)
  rw [runSteps_of_three hm hrun hp hport hpoll rfl hinspect rfl ((exec_of_rRead rfl).trans (rRead_of_cons hq)), ← hp]
  rfl

end Sys2Proof.Machine

/-! SUPPORT. US_TX_BYTE of a line-feed on the schedule of 95_test_vectors.md P3 (43_usart.md R176 to R178, R190, R191). -/

namespace Sys2Proof.Machine

section Schedule

variable {d : Byte} {k : Nat} {s t : State} {later : List Event}

/-- The hand-over of a waiting byte in its turn of the schedule (43_usart.md R190). -/
theorem step_handOver (hs : s.sched = .txHandOver :: later) (hu : s.udre = false) (he : s.txen = true)
    (hb : s.shiftBusy = false) :
    step s = .next { s with sched := later, shiftByte := s.txdr, shiftBusy := true, udre := true } := by
  rw [(transmitterSteps s).1 (State.turn_cons hs), if_pos ⟨hu, he, hb⟩, State.taken_cons hs]

/-- The end of a byte in its turn of the schedule (43_usart.md R191). -/
theorem step_complete (hs : s.sched = .txComplete :: later) (hb : s.shiftBusy = true) :
    step s = .next { s with sched := later, wireTx := s.wireTx ++ [s.shiftByte], shiftBusy := false,
                            txc := if s.udre then true else s.txc } := by
  rw [(transmitterSteps s).2 (State.turn_cons hs), if_pos hb, State.taken_cons hs]

/-- Two turns of the main line take US_TX_BYTE through T_POLL and T_WRITE where the data register is empty (43_usart.md R177,
R178). -/
theorem runSteps_poll_write (hs : s.sched = .main :: .main :: later) (hrun : s.seqStopped = false)
    (hd : decode s.cmd = .ok (.usTxByte d)) (hp : s.ph = .tPoll) (hu : s.udre = true)
    (h : tWrite ({ s with sched := later }.toPhase .tWrite) = .next t) : runSteps (k + 2) s = runSteps k t := by
  have hpoll : step s = .next ({ s with sched := .main :: later }.toPhase .tWrite) := by
    refine step_flight (State.turn_cons hs) hrun hd (by rw [hp]; rfl) ?_
    rw [exec_of_tPoll ((State.taken_ph s).trans hp), tPoll_eq, State.taken_udre, if_pos hu, State.taken_cons hs]
  have hwrite : step ({ s with sched := .main :: later }.toPhase .tWrite) = .next t := by
    refine step_flight (State.turn_cons rfl) hrun hd rfl ?_
    rw [State.taken_cons rfl, exec_of_tWrite rfl]
    exact h
  exact (runSteps_of_step hpoll).trans (runSteps_of_step hwrite)

/-- The state in which US_TX_BYTE of a line-feed, its word taken off a port of which `rest` is left, is to send the
carriage-return and then the line-feed, with the turns `later` to come (43_usart.md R176). -/
def State.expanding (s : State) (rest : List Word) (later : List Event) : State :=
  { s with sched := later, port := rest, rspValid := false, rspIll := false, cmd := encode (.usTxByte s.cfg.charLf),
           cur := s.cfg.charCr, nxt := some s.cfg.charLf, ph := .tPoll }

/-- T_START of a line-feed, which HOST takes with the issue of its word (30_encoding.md R79, 43_usart.md R176). -/
theorem step_expanding {rest : List Word} (hs : s.sched = .main :: later) (hp : s.ph = .idle)
    (hport : s.port = encode (.usTxByte s.cfg.charLf) :: rest) (hcrlf : s.cfg.crlf = true) :
    step s = .next (s.expanding rest later) := by
  refine step_issue ⟨State.turn_cons hs, hp⟩ hport ?_
  have hidle : (({ s with sched := later }.withPort rest).accept (encode (.usTxByte s.cfg.charLf))).ph = .idle := hp
  rw [State.taken_cons hs, exec_of_tStart (.inl hidle)]
  exact congrArg _ (if_pos ⟨rfl, hcrlf⟩)

/-- US_TX_BYTE sends the first of two bytes: T_POLL, T_WRITE and the hand-over to an idle shift register leave the data
register empty for the second one (43_usart.md R177, R178, R190). -/
theorem runSteps_sendFirst {b : Byte} (hs : s.sched = .main :: .main :: .txHandOver :: later) (hrun : s.seqStopped = false)
    (hd : decode s.cmd = .ok (.usTxByte d)) (hp : s.ph = .tPoll) (hn : s.nxt = some b) (hu : s.udre = true)
    (he : s.txen = true) (hb : s.shiftBusy = false) :
    runSteps (k + 3) s =
      runSteps k { s with sched := later, txdr := s.cur, udre := true, txc := false, cur := b, nxt := none, ph := .tPoll,
                          shiftByte := s.cur, shiftBusy := true } :=
  calc runSteps (k + 3) s =
        runSteps (k + 1) { s with sched := .txHandOver :: later, txdr := s.cur, udre := false, txc := false, cur := b,
                                  nxt := none, ph := .tPoll } :=
        runSteps_poll_write hs hrun hd hp hu (tWrite_of_some hu hn)
    _ = runSteps k _ := runSteps_of_step (step_handOver rfl rfl he hb)

/-- US_TX_BYTE sends its last byte and answers: T_POLL and T_WRITE (43_usart.md R177, R178). -/
theorem runSteps_sendLast (hs : s.sched = .main :: .main :: later) (hrun : s.seqStopped = false)
    (hd : decode s.cmd = .ok (.usTxByte d)) (hp : s.ph = .tPoll) (hn : s.nxt = none) (hu : s.udre = true) :
    runSteps (k + 2) s =
      runSteps k ({ s with sched := later, txdr := s.cur, udre := false, txc := false }.respond 0x00) :=
  runSteps_poll_write hs hrun hd hp hu (tWrite_of_none hu hn)

/-- The transmitter puts both of its bytes on the wire, and TXC is set at the end of the second one (43_usart.md R190,
R191). -/
theorem runSteps_drainTransmitter (hs : s.sched = .txComplete :: .txHandOver :: .txComplete :: later) (he : s.txen = true)
    (hu : s.udre = false) (hb : s.shiftBusy = true) :
    runSteps (k + 3) s =
      runSteps k { s with sched := later, wireTx := s.wireTx ++ [s.shiftByte] ++ [s.txdr], shiftByte := s.txdr,
                          shiftBusy := false, udre := true, txc := true } :=
  calc runSteps (k + 3) s = runSteps (k + 2) _ := runSteps_of_step (step_complete hs hb)
    _ = runSteps (k + 1) _ := runSteps_of_step (step_handOver rfl hu he rfl)
    _ = runSteps k _ := runSteps_of_step (step_complete rfl rfl)

end Schedule

/-- Settles O49: the carriage-return is in the shift register when the command answers, the line-feed in the data register,
and the transmitter then sends both. -/
theorem lineFeedSendsCrThenLf : Obligations.LineFeedSendsCrThenLf := by
  intro s rest hrun hp hport hcrlf he hu hb hs
  have hd : decode (encode (.usTxByte s.cfg.charLf)) = .ok (.usTxByte s.cfg.charLf) := decodeOfEncode _
  have hsent :=
    calc runSteps 9 s = runSteps 8 (s.expanding rest _) := runSteps_of_step (step_expanding hs hp hport hcrlf)
      _ = runSteps 5 _ := runSteps_sendFirst rfl hrun hd rfl rfl hu he hb
      _ = runSteps 3 _ := runSteps_sendLast rfl hrun hd rfl rfl rfl
      _ = runSteps 0 _ := runSteps_drainTransmitter rfl he rfl rfl
  exact ⟨_, hsent, List.append_assoc _ _ _, rfl, rfl, rfl, rfl, rfl, rfl, rfl⟩

end Sys2Proof.Machine

/-! SUPPORT. The turn of an interrupt handler: when it runs, and all that it writes (60_exceptions.md R213, R214). -/

namespace Sys2Proof.Machine

section Handler

variable {s : State} {e : Interference}

/-- IRQ is enabled by IE and one of the three causes of IRQ_REQ (10_state.md R37). -/
theorem irqEnabled_iff (s : State) :
    s.irqEnabled = true ↔
      s.ie = true ∧ ((s.txie = true ∧ s.udre = true) ∨ (s.rxie = true ∧ s.rxQ ≠ []) ∨ s.extIrq = true) := by
  simp [State.irqEnabled, State.irqReq, State.rxc, or_assoc]

theorem step_of_irq_enabled (hturn : s.turn = .irq e) (h : s.irqEnabled = true) :
    step s = .next (interfere e s.taken) := by
  rw [step_of_turn hturn, agentStep, State.taken_irqEnabled, if_pos h]

theorem step_of_irq_not_enabled (hturn : s.turn = .irq e) (h : ¬ s.irqEnabled = true) : step s = .next s.taken := by
  rw [step_of_turn hturn, agentStep, State.taken_irqEnabled, if_neg h]

/-- A handler's EEPROM part, with the write of its own that it makes (60_exceptions.md R214). -/
theorem interfereEeprom_eq {own : Option (Addr × Byte)}
    (hown : own = if s.eeBusy = false ∧ s.spmBusy = false then e.eeWrite else none) :
    interfereEeprom e s =
      { s with
        eear := e.eear.getD ((own.map Prod.fst).getD s.eear)
        eedr := e.eedr.getD ((own.map Prod.snd).getD s.eedr)
        eePendAddr := (own.map Prod.fst).getD s.eePendAddr
        eePendData := (own.map Prod.snd).getD s.eePendData
        eeBusy := if own.isSome then true else s.eeBusy
        eeWrCount := if own.isSome then s.eeWrCount + 1 else s.eeWrCount
        spmBusy := if e.startSpm then true else s.spmBusy } := by
  have hspm : (s.spmBusy || e.startSpm) = if e.startSpm then true else s.spmBusy := by cases e.startSpm <;> simp
  rcases interfereEeprom_cases e s with ⟨a, d, hw, hr, he⟩ | ⟨hnone, he⟩
  · obtain rfl : own = some (a, d) := by rw [hown, if_pos (s.eeReady_iff.1 hr), hw]
    rw [he, hspm]
    rfl
  · obtain rfl : own = none := by
      rw [hown]
      rcases hnone with hw | hr
      · rw [hw, ite_self]
      · exact if_neg fun h => by simp [s.eeReady_iff.2 h] at hr
    rw [he, hspm]
    rfl

/-- A handler's USART part (60_exceptions.md R214). -/
theorem interfereUsart_eq (e : Interference) (s : State) :
    interfereUsart e s =
      { s with
        txdr := e.transmit.getD s.txdr
        udre := if e.transmit.isSome then false else s.udre
        txc := if e.transmit.isSome then false else s.txc
        rxQ := if e.consume then s.rxQ.tail else s.rxQ
        txie := e.txie.getD s.txie
        rxie := e.rxie.getD s.rxie
        txen := e.txen.getD s.txen
        rxen := e.rxen.getD s.rxen
        fmt := e.fmt.getD s.fmt
        baud := e.baud.getD s.baud
        configured := e.configured.getD s.configured } := by
  cases ht : e.transmit <;> simp [interfereUsart, ht]

end Handler

/-- Settles O55: each of the two premises denies what enables IRQ. -/
theorem maskedInterruptHasNoStep : Obligations.MaskedInterruptHasNoStep := by
  intro s e hturn hmasked
  refine step_of_irq_not_enabled hturn fun henabled => ?_
  obtain ⟨hie, hreq⟩ := (irqEnabled_iff s).1 henabled
  rcases hmasked with hoff | ⟨htx, hrx, hext⟩
  · simp [hoff] at hie
  · rcases hreq with ⟨htxie, hudre⟩ | ⟨hrxie, hq⟩ | hset
    · simp [htxie, hudre] at htx
    · simp [hrxie, hq] at hrx
    · simp [hext] at hset

/-- Settles O56: the handler's step is its OR into ERR, its EEPROM part, its USART part and the cause of EXT_IRQ. -/
theorem interferenceFrame : Obligations.InterferenceFrame := by
  intro s e own hturn hown
  by_cases henabled : s.irqEnabled = true
  · have hown' : own = if (s.taken.orErr e.errMask).eeBusy = false ∧ (s.taken.orErr e.errMask).spmBusy = false
        then e.eeWrite else none := by simpa using hown
    have hext : (s.extIrq && !e.dropExt) = if e.dropExt then false else s.extIrq := by cases e.dropExt <;> simp
    rw [if_pos ((irqEnabled_iff s).1 henabled), step_of_irq_enabled hturn henabled, interfere,
      interfereEeprom_eq hown', interfereUsart_eq]
    simp [hext]
  · rw [if_neg (henabled ∘ (irqEnabled_iff s).2), step_of_irq_not_enabled hturn henabled]

end Sys2Proof.Machine

/-! SUPPORT. Which micro-step adds which reason to FAULTS, and the block after it: SEQ stands still until a reset,
whatever the other agents do (60_exceptions.md R210). -/

namespace Sys2Proof.Machine

section RaisedFault

variable {i : Instr} {r x : Fault} {s t u : State}

theorem step_of_fault (hq : s.seqNow) (hd : decode s.cmd = .ok i) (hp : hasPhase i s.ph = true)
    (hx : exec i s.taken = .fault r) : step s = .next ((atRaise i s.taken).recordFault r) :=
  (step_of_seqNow hq hd hp).trans (runCommand_of_fault hx)

/-- What FAULTS holds after a fault was recorded (60_exceptions.md R210). -/
theorem mem_faults_of_recordFault (i : Instr) (r x : Fault) (s : State) :
    x ∈ ((atRaise i s.taken).recordFault r).faults ↔ x = r ∨ x ∈ s.faults := by
  rw [State.recordFault_faults, mem_addFault, atRaise_faults, State.taken_faults]

/-- No step, a reset included, takes a reason out of FAULTS (10_state.md R38). -/
theorem faults_subset_of_step (h : step s = .next t) : s.faults ⊆ t.faults := by
  intro x hmem
  rcases step_faults h with ht | ⟨i, r, -, -, -, ht⟩
  · exact ht ▸ hmem
  · exact ht ▸ (mem_addFault r x s.faults).2 (.inr hmem)

/-- Under the invariant a step adds to FAULTS exactly what SEQ's micro-step raises. -/
theorem mem_faults_of_step (hinv : Inv s) (h : step s = .next t) :
    x ∈ t.faults ↔ x ∈ s.faults ∨ (s.seqNow ∧ ∃ i, decode s.cmd = .ok i ∧ exec i s.taken = .fault x) := by
  constructor
  · intro hmem
    rcases step_faults h with ht | ⟨i, r, hq, hd, hx, ht⟩
    · exact .inl (ht ▸ hmem)
    · rcases (mem_addFault r x s.faults).1 (ht ▸ hmem) with rfl | hmem
      · exact .inr ⟨hq, i, hd, hx⟩
      · exact .inl hmem
  · rintro (hmem | ⟨hq, i, hd, hx⟩)
    · exact faults_subset_of_step h hmem
    · have ⟨_, hph, _⟩ := hq
      obtain ⟨j, hj, hp⟩ := hinv.phaseOfCommand hph
      obtain rfl : j = i := Except.ok.inj (hj.symm.trans hd)
      obtain rfl := Host.Outcome.next.inj ((step_of_fault hq hd hp hx).symm.trans h)
      exact (mem_faults_of_recordFault j x x s).2 (.inl rfl)

/-- T_WRITE is a phase of US_TX_BYTE alone (10_state.md R26). -/
theorem eq_usTxByte_of_hasPhase (h : hasPhase i .tWrite = true) : ∃ d, i = .usTxByte d := by
  cases i with
  | usTxByte d => exact ⟨d, rfl⟩
  | _ => cases h

/-- R_INSPECT and R_READ are phases of US_RX_BYTE alone (10_state.md R26). -/
theorem eq_usRxByte_of_hasPhase {p : Phase} (hp : p = .rInspect ∨ p = .rRead) (h : hasPhase i p = true) :
    i = .usRxByte := by
  cases i with
  | usRxByte => rfl
  | _ => rcases hp with rfl | rfl <;> cases h

/-- The command in flight raises TX_COLLISION where T_WRITE finds the data register full (43_usart.md R178). -/
theorem raises_txCollision_iff (hinv : Inv s) :
    (∃ i, decode s.cmd = .ok i ∧ exec i s.taken = .fault .txCollision) ↔ s.ph = .tWrite ∧ s.udre = false := by
  constructor
  · rintro ⟨i, -, hx⟩
    rcases exec_fault hx with ⟨hr, -⟩ | ⟨-, hp, hu, -⟩ | ⟨hr, -⟩
    · cases hr
    · exact ⟨by rwa [State.taken_ph] at hp, by rwa [State.taken_udre] at hu⟩
    · cases hr
  · rintro ⟨hp, hu⟩
    obtain ⟨i, hd, hi⟩ := hinv.phaseOfCommand (by rw [hp]; nofun)
    obtain ⟨d, rfl⟩ := eq_usTxByte_of_hasPhase (hp ▸ hi)
    exact ⟨_, hd, by rw [exec_of_tWrite (by rwa [State.taken_ph]), tWrite_of_full (by rwa [State.taken_udre])]⟩

/-- The command in flight raises RX_EMPTY where R_INSPECT or R_READ finds no entry (43_usart.md R181, R182). -/
theorem raises_rxEmpty_iff (hinv : Inv s) :
    (∃ i, decode s.cmd = .ok i ∧ exec i s.taken = .fault .rxEmpty) ↔
      (s.ph = .rInspect ∨ s.ph = .rRead) ∧ s.rxQ = [] := by
  constructor
  · rintro ⟨i, -, hx⟩
    rcases exec_fault hx with ⟨hr, -⟩ | ⟨hr, -⟩ | ⟨-, hp, hq, -⟩
    · cases hr
    · cases hr
    · exact ⟨by rwa [State.taken_ph] at hp, by rwa [State.taken_rxQ] at hq⟩
  · rintro ⟨hp, hq⟩
    obtain ⟨i, hd, hi⟩ := hinv.phaseOfCommand (by rcases hp with hp | hp <;> rw [hp] <;> nofun)
    obtain rfl := eq_usRxByte_of_hasPhase hp hi
    obtain ⟨-, phases⟩ := rxBytePhases
    obtain ⟨-, empty, -⟩ := phases s.taken
    exact ⟨_, hd, empty (by rwa [State.taken_ph]) (by rwa [State.taken_rxQ])⟩

/-! The block after a fault. -/

/-- `t` is `s` with SEQ stopped in the midst of its command: the sequencer, IE and the response flag are as they were, and
every word of the port is still there. -/
structure HaltedFrom (s t : State) : Prop where
  stopped : t.seqStopped = true
  ph : t.ph = s.ph
  cmd : t.cmd = s.cmd
  sav : t.sav = s.sav
  cur : t.cur = s.cur
  nxt : t.nxt = s.nxt
  ie : t.ie = s.ie
  rspValid : t.rspValid = s.rspValid
  port : s.port <+: t.port

theorem HaltedFrom.trans (h : HaltedFrom s t) (h' : HaltedFrom t u) : HaltedFrom s u where
  stopped := h'.stopped
  ph := h'.ph.trans h.ph
  cmd := h'.cmd.trans h.cmd
  sav := h'.sav.trans h.sav
  cur := h'.cur.trans h.cur
  nxt := h'.nxt.trans h.nxt
  ie := h'.ie.trans h.ie
  rspValid := h'.rspValid.trans h.rspValid
  port := h.port.trans h'.port

theorem haltedFrom_taken (hs : s.seqStopped = true) : HaltedFrom s s.taken := by
  constructor <;> simp [hs]

/-- A micro-step that raises a fault leaves the sequencer where it was (60_exceptions.md R210). -/
theorem haltedFrom_recordFault (i : Instr) (r : Fault) (s : State) :
    HaltedFrom s ((atRaise i s.taken).recordFault r) := by
  rcases atRaise_cases i s.taken with e | ⟨a, d, v, -, e⟩ <;> rw [e] <;> constructor <;> simp

/-- No agent but the main line and the resets writes CUR and NXT (10_state.md R24). -/
theorem agentStep_cur_nxt {e : Event} (h : agentStep e s = .next t) (hm : e ≠ .main) (hr : e.isReset = false) :
    t.cur = s.cur ∧ t.nxt = s.nxt := by
  cases e with
  | main => exact absurd rfl hm
  | coldReset d => cases hr
  | warmReset d => cases hr
  | irq x =>
    cases h
    split
    · simp [interfere_frame x s]
    · exact ⟨rfl, rfl⟩
  | eep x => cases h; rcases eepStep_cases x s with ⟨-, e⟩ | ⟨-, e⟩ <;> rw [e] <;> exact ⟨rfl, rfl⟩
  | txHandOver => cases h; rcases txHandOver_cases s with ⟨-, -, -, e⟩ | ⟨-, e⟩ <;> rw [e] <;> exact ⟨rfl, rfl⟩
  | txComplete => cases h; rcases txComplete_cases s with ⟨-, e⟩ | ⟨-, e⟩ <;> rw [e] <;> exact ⟨rfl, rfl⟩
  | rxArrive x p o f =>
    cases h
    rcases rxArrive_cases x p o f s with ⟨-, -, e⟩ | ⟨-, -, e⟩ | ⟨-, e⟩ <;> rw [e] <;> exact ⟨rfl, rfl⟩
  | setExtIrq b => cases h; exact ⟨rfl, rfl⟩
  | spmStart => cases h; split <;> exact ⟨rfl, rfl⟩
  | spmEnd => cases h; exact ⟨rfl, rfl⟩
  | hostWord w => cases h; exact ⟨rfl, rfl⟩

theorem agentStep_haltedFrom {e : Event} (h : agentStep e s = .next t) (hm : e ≠ .main) (hr : e.isReset = false)
    (hs : s.seqStopped = true) : HaltedFrom s t :=
  have hk := agentStep_sequencerKept h hm hr
  have ⟨hcur, hnxt⟩ := agentStep_cur_nxt h hm hr
  { stopped := hk.seqStopped.trans hs
    ph := hk.ph
    cmd := hk.cmd
    sav := agentStep_sav h hm hr
    cur := hcur
    nxt := hnxt
    ie := hk.ie
    rspValid := hk.rspValid
    port := agentStep_keeps_port h hm }

/-- A stopped SEQ stands still in every turn but a reset's: the main line has no step, and no other agent moves it. -/
theorem step_haltedFrom (hs : s.seqStopped = true) (hp : s.ph ≠ .idle) (hr : s.turn.isReset = false)
    (h : step s = .next t) : HaltedFrom s t := by
  by_cases hm : s.turn = .main
  · obtain ⟨-, -, waits, -⟩ := sequencerRunsCommandInFlight
    obtain rfl := Host.Outcome.next.inj ((waits s hm hp hs).symm.trans h)
    exact haltedFrom_taken hs
  · exact (haltedFrom_taken hs).trans
      (agentStep_haltedFrom (step_eq s ▸ h) hm hr ((State.taken_seqStopped s).trans hs))

/-- A SEQ that has stopped in the midst of a command stands still in every run without a reset. -/
theorem runSteps_haltedFrom {k : Nat} (hs : HaltedFrom s u) (hp : s.ph ≠ .idle) (hn : NoEvent Event.isReset u)
    (h : runSteps k u = .next t) : HaltedFrom s t := by
  have hrun : HaltedFrom s t ∧ NoEvent Event.isReset t :=
    runSteps_induction (p := fun v => HaltedFrom s v ∧ NoEvent Event.isReset v)
      (fun v w ⟨hv, hnv⟩ hstep =>
        ⟨hv.trans (step_haltedFrom hv.stopped (hv.ph ▸ hp) (noEvent_turn hnv) hstep), noEvent_step hnv hstep⟩)
      ⟨hs, hn⟩ h
  exact hrun.1

/-- A run has no final state once FAULTS holds a reason (10_state.md R38). -/
theorem finalState_of_mem_faults (h : r ∈ s.faults) (k : Nat) : finalState k s = none := by
  unfold finalState
  split
  · next t ht =>
    have hmem : r ∈ t.faults :=
      runSteps_induction (p := fun v => r ∈ v.faults) (fun _ _ hv hstep => faults_subset_of_step hstep hv) h ht
    exact if_neg (List.ne_nil_of_mem hmem)
  · rfl
  · rfl

theorem finalState_succ {k : Nat} (h : step s = .next t) : finalState (k + 1) s = finalState k t := by
  simp only [finalState, runSteps_of_step h]

/-- The two faults that a run can reach are raised before their micro-step has written anything. -/
theorem atRaise_of_fault (h : exec i s = .fault r) (hr : r ≠ .eeCommitWhileBusy) : atRaise i s = s := by
  rcases exec_fault h with ⟨he, -⟩ | ⟨-, -, -, d, rfl⟩ | ⟨-, -, -, rfl⟩
  · exact absurd he hr
  · rfl
  · rfl

end RaisedFault

/-- Settles O41: a step adds what SEQ's micro-step raises, and each of the two faults is raised in its own phases only. -/
theorem faultsExactlyWhen : Obligations.FaultsExactlyWhen := by
  intro s t hinv h
  rw [mem_faults_of_step hinv h, mem_faults_of_step hinv h, raises_txCollision_iff hinv, raises_rxEmpty_iff hinv]
  exact ⟨Iff.rfl, Iff.rfl⟩

/-- Settles O43: the step records the fault, no later step takes it out of FAULTS, and none but a reset moves SEQ. -/
theorem faultedRunHasNoFinalState : Obligations.FaultedRunHasNoFinalState := by
  intro s i r hq hd hi hx
  have hstep := step_of_fault hq hd hi hx
  have hhalted := haltedFrom_recordFault i r s
  refine ⟨⟨_, hstep, fun x => mem_faults_of_recordFault i r x s, hhalted.ph, hhalted.stopped, fun hr => ?unwritten⟩,
    fun k => ?final, fun k t hn hrun => ?halted⟩
  case unwritten =>
    rw [atRaise_of_fault hx hr]
    rfl
  case final =>
    rw [finalState_succ hstep]
    exact finalState_of_mem_faults ((mem_faults_of_recordFault i r r s).2 (.inl rfl)) k
  case halted =>
    rw [runSteps_of_step hstep] at hrun
    obtain ⟨hs, hph, hcmd, hsav, hcur, hnxt, hie, hrsp, extra, hport⟩ :=
      runSteps_haltedFrom hhalted (ne_idle_of_hasPhase hi) (noEvent_step hn hstep) hrun
    exact ⟨hs, hph, hcmd, hsav, hcur, hnxt, hie, hrsp, extra, hport.symm⟩

end Sys2Proof.Machine

/-! SUPPORT. The turn of a reset: EE_MEM after it and the registers it writes (10_state.md section 7,
70_reset_and_hazards.md R231 to R236). -/

namespace Sys2Proof.Machine

/-- Taking the turn is no part of what R236 says. -/
@[simp] theorem resetMemory_taken (d : ResetDraw) (s : State) : resetMemory d s.taken = resetMemory d s := by
  simp only [resetMemory, State.taken_eeBusy, State.taken_eePendAddr, State.taken_cfg, State.taken_eeMem]

section Reset

variable {s : State}

theorem resetMemory_of_idle (h : s.eeBusy = false) (d : ResetDraw) : resetMemory d s = s.eeMem :=
  if_neg fun hw => by simp [h] at hw

theorem resetMemory_of_valid (hb : s.eeBusy = true) (ha : s.eePendAddr.toNat < s.cfg.size) (d : ResetDraw) :
    resetMemory d s = s.eeMem.set s.eePendAddr.toNat d.cell := if_pos ⟨hb, ha⟩

/-- Either reset leaves EE_MEM as R236 says. -/
theorem eeMem_of_reset_turn {t : State} {d : ResetDraw} (hturn : s.turn = .coldReset d ∨ s.turn = .warmReset d)
    (h : step s = .next t) : t.eeMem = resetMemory d s := by
  rcases hturn with hcold | hwarm
  · obtain rfl : coldReset d s.taken = t := Host.Outcome.next.inj ((step_of_turn hcold).symm.trans h)
    exact resetMemory_taken d s
  · obtain rfl : warmReset d s.taken = t := Host.Outcome.next.inj ((step_of_turn hwarm).symm.trans h)
    exact resetMemory_taken d s

end Reset

/-- Settles O59: with no write in flight EE_MEM is as it was, and else it is EE_MEM with the drawn byte set. -/
theorem resetTearsWriteInFlight : Obligations.ResetTearsWriteInFlight := by
  intro s t d hturn hstep
  have hmem := eeMem_of_reset_turn hturn hstep
  refine ⟨fun hidle => ?idle, fun hbusy haddr n => ?torn⟩
  case idle => rw [hmem, resetMemory_of_idle hidle]
  case torn => exact State.eeByte_set s t _ _ (hmem.trans (resetMemory_of_valid hbusy haddr d)) n

/-- Settles O58: the two resets differ in ERR and EE_WR_COUNT only, and the memory they leave is `resetMemory`. -/
theorem resetsWriteResetValues : Obligations.ResetsWriteResetValues := by
  intro s d b hturn
  refine ⟨resetMemory d s, fun hidle => resetMemory_of_idle hidle d, ?_⟩
  rw [step_of_turn hturn]
  cases b with
  | true => simp [agentStep, coldReset, resetBoth]
  | false => simp [agentStep, warmReset, resetBoth]

/-- Settles O60: every value is a field of the literal state; ERR's is CODE_NONE of the default parameters. -/
theorem resetStateValues : Obligations.ResetStateValues := by
  have hnone : Config.default.codeNone = 0x00#8 := rfl
  simp [Obligations.ResetStateValues, State.reset, hnone]

end Sys2Proof.Machine
